-- ==== Sys2Proof/Word.lean ====
section
/-! DEFINITION. Bytes, addresses, counts and the byte arrays of fixed shape the block works on (spec/00_scope.md R8, R17). The widths 8, 16 and 32 of R8
are those of the three types here. -/

namespace Sys2Proof

/-- A byte is 8 bits (R8). -/
abbrev Byte := BitVec 8

/-- A sector address, an unsigned value of `ADDR_W = 32` bits (R8, R61). -/
abbrev Addr := BitVec 32

/-- A 16-bit unsigned count: the header's length field (`LEN_W = 16`, R8) and the byte counts of the queue port (R208). -/
abbrev Count := BitVec 16

/-- A drive id. It is only stored and compared for equality (R14), so it is a number; its width `DRIVE_W` is checked where an
operation is decoded. -/
abbrev DriveId := Nat

/-- An array of exactly `n` bytes, index 0 first (R17). The length is part of the type, so that a block of another length
cannot be written down (R21, U13). -/
structure Buf (n : Nat) where
  bytes : List Byte
  size : bytes.length = n
deriving DecidableEq, Repr

/-- A sequence of at most 65535 bytes, so that its length is a 16-bit count (R208): the Byte Queue's contents, a `Push`
batch, the bytes a `Pop` returns, a payload. -/
structure ByteSeq where
  bytes : List Byte
  size : bytes.length ≤ 65535
deriving DecidableEq, Repr

end Sys2Proof
end

