-- ==== Sys2Proof/Config.lean ====
section
/-! DEFINITION. The configuration: the block's fixed sizes and every numeric literal of the spec (R16), its parameters (spec/00_scope.md R8 to R16) and the free values of the external transport (R221). -/

namespace Sys2Proof

/-! ### The numeric literals, each in one place (R16); what follows from them is computed from them -/

/-- `ADDR_W` (R8): the width of `Addr`. -/
abbrev addrW : Nat := 32
/-- `LEN_W` (R8): the width of `Count`. -/
abbrev lenW : Nat := 16
/-- `BLOCK_LEN` (R8). -/
abbrev blockLen : Nat := 512
/-- `MARKER_LEN` (R8). -/
abbrev markerLen : Nat := 4
/-- The reserved bytes behind a header's marker (R92). -/
abbrev reservedLen : Nat := 2
/-- The bytes of a header's length field (R92). -/
abbrev lengthLen : Nat := 2
/-- The reserved bytes at a header's end (R92). -/
abbrev trailerLen : Nat := 4
/-- `HDR_LEN` (R8): `4 + 2 + 2 + 4 = 12` (R16). -/
abbrev hdrLen : Nat := markerLen + reservedLen + lengthLen + trailerLen
/-- Where the length field lies in a header: offset 6 (R92). -/
abbrev lengthOffset : Nat := markerLen + reservedLen
/-- `KNOCK_LEN` (R8). -/
abbrev knockLen : Nat := 5
/-- The last index of the knock sequence: 4 (R112, R140). -/
abbrev knockLast : Fin knockLen := ⟨knockLen - 1, by decide⟩
/-- How many markers the magic pattern repeats: 128 (R96); `128 * 4 = 512` (R16). -/
abbrev magicReps : Nat := 128
/-- The length the confirming reply declares: 8, the bytes of its marker and of the sector address (R97, R152, R16). -/
abbrev confirmLen : Count := 8
/-- The length the presence announcement declares: 0 (R98). -/
abbrev announceLen : Count := 0
/-- The most payload bytes a block holds behind a header: `BLOCK_LEN - HDR_LEN = 500` (R182). -/
abbrev framePayload : Nat := blockLen - hdrLen
/-- What a channel read asks of the transport: 500 (R181, R182). -/
abbrev readMax : Count := BitVec.ofNat _ framePayload

@[simp] theorem addrW_eq : addrW = 32 := by decide
@[simp] theorem lenW_eq : lenW = 16 := by decide
@[simp] theorem blockLen_eq : blockLen = 512 := by decide
@[simp] theorem markerLen_eq : markerLen = 4 := by decide
@[simp] theorem reservedLen_eq : reservedLen = 2 := by decide
@[simp] theorem lengthLen_eq : lengthLen = 2 := by decide
@[simp] theorem trailerLen_eq : trailerLen = 4 := by decide
@[simp] theorem hdrLen_eq : hdrLen = 12 := by decide
@[simp] theorem lengthOffset_eq : lengthOffset = 6 := by decide
@[simp] theorem knockLast_eq : knockLast = 4 := by decide
@[simp] theorem magicReps_eq : magicReps = 128 := by decide
@[simp] theorem framePayload_eq : framePayload = 500 := by decide
@[simp] theorem readMax_eq : readMax = 500#16 := by decide

/-- The consistency the spec checked among the literals (R16): `128 * 4 = 512`, `4 + 2 + 2 + 4 = 12`, and the confirming reply's
`4 + 4` bytes are the 8 it declares. -/
theorem literals_agree :
    magicReps * markerLen = blockLen ∧ markerLen + reservedLen + lengthLen + trailerLen = hdrLen ∧
    markerLen + addrW / 8 = confirmLen.toNat := by decide

/-- The widths are those of the types (R8). -/
theorem widths_agree : Addr = BitVec addrW ∧ Count = BitVec lenW := ⟨rfl, rfl⟩

/-- A tag buffer: 12 bytes or more (R13, R21, R64). -/
structure Tag where
  bytes : List Byte
  size : hdrLen ≤ bytes.length
deriving DecidableEq, Repr

/-- The block buffer (R63). -/
abbrev Block := Buf blockLen
/-- A frame header (R92). -/
abbrev Header := Buf hdrLen
/-- A 4-byte marker (R11, R67). -/
abbrev Marker := Buf markerLen

/-- `TRANSPORT` (R15). -/
inductive Transport where
  | loopback
  | external
deriving DecidableEq, Repr

/-- The parameters of the block, raw: R9 (`FIFO_CAP`, at most 65535 by its type), R10 (`KNOCK`), R11 (the markers), R12
(`SENTINEL`), R13 (`TAG_LEN`), R14 (`DRIVE_W`), R15 (`TRANSPORT`). -/
structure Params where
  reqMarker : Marker
  replyMarker : Marker
  sentinel : Addr
  knock : Vector Addr knockLen
  fifoCap : Count
  tagLen : Nat
  driveW : Nat
  transport : Transport
deriving DecidableEq, Repr

/-- The constraints the spec states on the parameters: the markers differ (R11), `SENTINEL` is no element of `KNOCK` (R12),
`1 <= FIFO_CAP` (R9), `TAG_LEN >= 12` (R13), `DRIVE_W >= 1` (R14). -/
def Params.ok (p : Params) : Bool :=
  p.reqMarker != p.replyMarker && p.knock.toList.all (· != p.sentinel) && decide (1 ≤ p.fifoCap.toNat)
    && decide (hdrLen ≤ p.tagLen) && decide (1 ≤ p.driveW)

/-- A configuration: parameters that meet their constraints. A statement for every state is a statement for every
configuration, as the OPEN parameters ask (R11 to R14). -/
structure Config extends Params where
  valid : toParams.ok = true
deriving DecidableEq, Repr

/-- The configuration of `State.reset`: the spec's defaults for `KNOCK`, `FIFO_CAP` and `TRANSPORT`, and, DESIGN CHOICE (log entry
3), the placeholders of the spec's test instantiation T0 (95_test_vectors.md section 1.1) for the OPEN parameters, which have no value in the spec.
No statement rests on the placeholders but TableKeysDecode, which says so. -/
def Config.reference : Config where
  reqMarker := ⟨[0xA1, 0xA2, 0xA3, 0xA4], rfl⟩
  replyMarker := ⟨[0xB1, 0xB2, 0xB3, 0xB4], rfl⟩
  sentinel := 0xFFFFFFFF
  knock := #v[0, 70, 85, 74, 73]
  fifoCap := 2000
  tagLen := 12
  driveW := 8
  transport := .loopback
  valid := by decide

/-- One call made to the external transport: a read with its `maxLen`, or a write with its bytes (R215, R216). -/
inductive XpEvent where
  | read (maxLen : Count)
  | wrote (bytes : ByteSeq)
deriving DecidableEq, Repr

/-- FREE VALUE (R221, U8, log entry 9): how many bytes the external transport would give at this point of its history. -/
opaque Config.externalLen : List XpEvent → Nat
/-- FREE VALUE (R221, U8, log entry 9): the i-th byte the external transport gives at this point of its history. -/
opaque Config.externalByte : List XpEvent → Nat → Byte
/-- FREE VALUE (R221, U8, log entry 9): the 16-bit `avail` the external transport reports; nothing relates it to the bytes given. -/
opaque Config.externalAvail : List XpEvent → Count

end Sys2Proof
end

