-- ==== Sys2Proof/Syntax.lean ====
section
/-! DEFINITION. The operations of the block: one constructor of `Instr` for each row of spec/opcode_table.json, and the raw
requests the environment presents (spec/30_encoding.md R90, R118; spec/45_transport.md R222). -/

namespace Sys2Proof

/-- The direction of an access (R90, R91). -/
inductive Dir where
  | read
  | write
deriving DecidableEq, Repr

/-- The access descriptor: the five operands of one sector access (R90). -/
structure Access where
  drive : DriveId
  addr : Addr
  dir : Dir
  tag : Tag
  blk : Block
deriving DecidableEq, Repr

/-- Where a write frame's header lies: in the tag buffer, or in the first 12 bytes of the block (R100, R101). -/
inductive Placement where
  | inTag
  | inBlk
deriving DecidableEq, Repr

/-- The operations, in the order of spec/opcode_table.json. The access classes carry the access they classify (R110 to R117); the
sub-operations and layouts carry the operands their rules name. -/
inductive Instr where
  | sentRd (a : Access)
  | sentWr (a : Access)
  | knHit (a : Access)
  | knDone (a : Access)
  | knMiss (a : Access)
  | phIdle (a : Access)
  | phClaimAccept (a : Access)
  | phClaimPass (a : Access)
  | phPendConfirm (a : Access)
  | phPendMiss (a : Access)
  | phActRd (a : Access)
  | phActWr (a : Access)
  | phActConflict (a : Access)
  | phActPass (a : Access)
  | isChannelIO (a : Access)
  | chRd (tag : Tag) (blk : Block)
  | chWrTag (tag : Tag) (blk : Block)
  | chWrBlk (tag : Tag) (blk : Block)
  | chWrReject (tag : Tag) (blk : Block)
  | chClamp (length : Count) (p : Placement)
  | chFwd (p : Placement) (len : Count) (tag : Tag) (blk : Block)
  | hdrEnc (length : Count)
  | hdrDec (h : Header)
  | blkMagic (blk : Block)
  | blkConfirm (tag : Tag) (blk : Block)
  | tagAnnounce (tag : Tag) (blk : Block)
  | frameRd (avail : Count) (payload : ByteSeq) (tag : Tag) (blk : Block)
  | frameWrTag (tag : Tag) (blk : Block)
  | frameWrBlk (tag : Tag) (blk : Block)
  | qPush (batch : ByteSeq)
  | qPop (maxLen : Count)
  | qAvail
  | xpRd (maxLen : Count)
  | xpWr (bytes : ByteSeq)
  | reset
deriving DecidableEq, Repr

/-- What the environment presents at a port, raw (D1: the ports are operations). An access is its drive, the key
`K = dir ++ addr` of R91 and the two buffers; the queue port and reset are named (R222, R260). Nothing is checked here: a buffer may
have any length and a number any size. -/
inductive Request where
  | access (drive : Nat) (key : Nat) (tag blk : List Byte)
  | push (bytes : List Byte)
  | pop (maxLen : Nat)
  | available
  | reset
deriving DecidableEq, Repr

/-- Why the decoder refuses a request: each is a violation of a port's shape (R21, U13), to which the spec gives no meaning. -/
inductive DecodeError where
  /-- the key has a bit above bit 32 (R91) -/
  | keyTooWide
  /-- the drive id does not fit in `DRIVE_W` bits (R14) -/
  | driveTooWide
  /-- the tag buffer has not `TAG_LEN` bytes (R13, R270) -/
  | tagLength
  /-- the block buffer has not 512 bytes (R270) -/
  | blockLength
  /-- the batch of a `Push` has more than 65535 bytes (R208) -/
  | batchTooLong
  /-- the `maxLen` of a `Pop` is above 65535 (R208) -/
  | maxLenTooWide
deriving DecidableEq, Repr

end Sys2Proof
end

