-- ==== Sys2Proof/WellFormed.lean ====
section
/-! DEFINITION. Which instructions are well-formed under a configuration: the shapes that the types of the operands leave open
(spec/00_scope.md R13, R14, R21; spec/43_channel_handler.md R182, R188). -/

namespace Sys2Proof

/-- A tag operand has `TAG_LEN` bytes (R13). -/
def Tag.fits (c : Config) (t : Tag) : Bool := t.bytes.length == c.tagLen

/-- A drive id has `DRIVE_W` bits (R14). -/
def driveFits (c : Config) (d : DriveId) : Bool := decide (d < 2 ^ c.driveW)

/-- An access has the shape of the port it is presented at (R90). -/
def Access.fits (c : Config) (a : Access) : Bool := driveFits c a.drive && a.tag.fits c

/-- The shape of each operation's operands; the payload bounds are those of R103 (512 bytes in tag placement, 500 in block placement) and R182. -/
def wellFormed (c : Config) : Instr → Bool
  | .sentRd a | .sentWr a | .knHit a | .knDone a | .knMiss a | .phIdle a | .phClaimAccept a | .phClaimPass a
  | .phPendConfirm a | .phPendMiss a | .phActRd a | .phActWr a | .phActConflict a | .phActPass a | .isChannelIO a => a.fits c
  | .chRd t _ | .chWrTag t _ | .chWrBlk t _ | .chWrReject t _ => t.fits c
  | .chFwd p len t _ => decide (len.toNat ≤ match p with | .inTag => blockLen | .inBlk => framePayload) && t.fits c
  | .blkConfirm t _ | .tagAnnounce t _ | .frameWrTag t _ | .frameWrBlk t _ => t.fits c
  | .frameRd _ payload t _ => decide (payload.bytes.length ≤ framePayload) && t.fits c
  | .chClamp _ _ | .hdrEnc _ | .hdrDec _ | .blkMagic _ | .qPush _ | .qPop _ | .qAvail | .xpRd _ | .xpWr _ | .reset => true

end Sys2Proof
end

