-- ==== Sys2Proof/Decode.lean ====
section
/-! DEFINITION. Byte helpers, the Header Codec and the block layouts (spec/30_encoding.md, spec/42_header_codec.md), the decoder of the requests the environment presents, and the encoder. -/

namespace Sys2Proof

/-! ### Byte arrays (R17, R19) -/

/-- `MemWrite`: `bs` replaces the bytes at `off, off + 1, ...` and no others (R19). It never changes the length; a byte that would
fall past the end goes nowhere, and no rule writes one (R24 (g)). -/
def splice : List Byte → Nat → List Byte → List Byte
  | [], _, _ => []
  | x :: xs, 0, [] => x :: xs
  | _ :: xs, 0, b :: bs => b :: splice xs 0 bs
  | x :: xs, off + 1, bs => x :: splice xs off bs

theorem splice_length (l : List Byte) (off : Nat) (bs : List Byte) : (splice l off bs).length = l.length := by
  induction l generalizing off bs with
  | nil => rfl
  | cons x xs ih => cases off with
    | zero => cases bs with
      | nil => rfl
      | cons b bs => simp [splice, ih]
    | succ off => simp [splice, ih]

/-- `buf[off ..] <- bs` on an array of fixed length. -/
def Buf.write {n : Nat} (b : Buf n) (off : Nat) (bs : List Byte) : Buf n :=
  ⟨splice b.bytes off bs, by rw [splice_length, b.size]⟩

/-- `tag[off ..] <- bs`. -/
def Tag.write (t : Tag) (off : Nat) (bs : List Byte) : Tag :=
  ⟨splice t.bytes off bs, by rw [splice_length]; exact t.size⟩

/-- `buf[off .. off + len - 1]` (R17). -/
def Buf.slice {n : Nat} (b : Buf n) (off len : Nat) : List Byte := (b.bytes.drop off).take len

/-- `buf[i]` (R17). -/
def Buf.get {n : Nat} (b : Buf n) (i : Nat) (h : i < n) : Byte := b.bytes[i]'(by rw [b.size]; exact h)

/-! ### Big-endian fields (R18, R66) -/

/-- `BE16(v) = [v[15:8], v[7:0]]`. -/
def be16 (v : Count) : List Byte := [v.extractLsb' 8 8, v.extractLsb' 0 8]

/-- `BE32(v) = [v[31:24], v[23:16], v[15:8], v[7:0]]`. -/
def be32 (v : Addr) : List Byte := [v.extractLsb' 24 8, v.extractLsb' 16 8, v.extractLsb' 8 8, v.extractLsb' 0 8]

/-- `UBE16(b) = b[0] * 256 + b[1]`. -/
def ube16 (hi lo : Byte) : Count := BitVec.ofNat _ (hi.toNat * 256 + lo.toNat)

/-- `n` zero bytes: what the block writes into the reserved bytes of a header (R95). -/
def zeros (n : Nat) : List Byte := List.replicate n 0

/-! ### The Header Codec (R92 to R95, R170 to R173) -/

/-- `HdrEncode(length) = REPLY_MARKER ++ 00 00 ++ BE16(length) ++ 00 00 00 00` (R170). The operand has 16 bits, so that a
longer length cannot be presented (R171). -/
def hdrEncode (c : Config) (length : Count) : Header :=
  ⟨c.replyMarker.bytes ++ zeros reservedLen ++ be16 length ++ zeros trailerLen, by simp [be16, zeros, c.replyMarker.size]⟩

/-- `HdrDecode(h) = (isValid, length)`: valid exactly when `h[0..3]` is `REQ_MARKER`; the length is `h[6] * 256 + h[7]` whether or
not the header is valid; the reserved bytes take no part (R172, R173). -/
def hdrDecode (c : Config) (h : Header) : Bool × Count :=
  (h.bytes.take markerLen == c.reqMarker.bytes,
    ube16 (h.get lengthOffset (by decide)) (h.get (lengthOffset + 1) (by decide)))

/-- `tag[0..11]` as a header. -/
def Tag.header (t : Tag) : Header := ⟨t.bytes.take hdrLen, by rw [List.length_take]; exact Nat.min_eq_left t.size⟩

/-- `blk[0..11]` as a header. -/
def Buf.header (b : Block) : Header := ⟨b.bytes.take hdrLen, by rw [List.length_take, b.size]; decide⟩

/-! ### Layouts (R96 to R99) -/

/-- `rep(REQ_MARKER, 128)` (R96). -/
def magicPattern (c : Config) : List Byte := (List.replicate magicReps c.reqMarker.bytes).flatten

/-- `blk[0..511] = rep(REQ_MARKER, 128)` (R96, R147). -/
def isMagicBlock (c : Config) (b : Block) : Bool := b.bytes == magicPattern c

/-- `tag[0..11] <- HdrEncode(length)` (R97, R98). -/
def Tag.putHeader (c : Config) (t : Tag) (length : Count) : Tag := t.write 0 (hdrEncode c length).bytes

/-- `blk[0..3] <- REPLY_MARKER; blk[4..7] <- BE32(magic)` (R97, conflict C1: marker first). -/
def confirmBlock (c : Config) (b : Block) (magic : Addr) : Block := (b.write 0 c.replyMarker.bytes).write markerLen (be32 magic)

/-- A read frame: `blk[12 ..] <- payload; blk[0..11] <- HdrEncode(avail)` (R99, R181). -/
def readFrame (c : Config) (b : Block) (avail : Count) (payload : List Byte) : Block :=
  (b.write hdrLen payload).write 0 (hdrEncode c avail).bytes

/-! ### The access key (R91) -/

/-- `READ = 0`, `WRITE = 1` (R91). -/
def Dir.bit : Dir → Nat
  | .read => 0
  | .write => 1

/-- `K = dir ++ addr`: `K[32] = dir`, `K[31:0] = addr` (R91). -/
def accessKey (d : Dir) (a : Addr) : Nat := d.bit * 2 ^ addrW + a.toNat

/-- `dir = K[32]`. -/
def keyDir (k : Nat) : Dir := if k / 2 ^ addrW % 2 = 0 then .read else .write

/-- `addr = K[31:0]`. -/
def keyAddr (k : Nat) : Addr := BitVec.ofNat _ k

/-! ### Decoding a request -/

/-- The decoder: total, and each refusal has a name. An access becomes the entry point `isChannelIO`, whose row of the table
matches every access (R118, R130); what class it falls in depends on the state (R118) and is said in Machine/Classify.lean. -/
def decode (c : Config) : Request → Except DecodeError Instr
  | .access drive key tag blk =>
    if key < 2 ^ (addrW + 1) then
      if driveFits c drive then
        if ht : hdrLen ≤ tag.length then
          if tag.length = c.tagLen then
            if hb : blk.length = blockLen then
              .ok (.isChannelIO ⟨drive, keyAddr key, keyDir key, ⟨tag, ht⟩, ⟨blk, hb⟩⟩)
            else .error .blockLength
          else .error .tagLength
        else .error .tagLength
      else .error .driveTooWide
    else .error .keyTooWide
  | .push bytes => if h : bytes.length ≤ 65535 then .ok (.qPush ⟨bytes, h⟩) else .error .batchTooLong
  | .pop maxLen => if maxLen < 2 ^ lenW then .ok (.qPop (BitVec.ofNat _ maxLen)) else .error .maxLenTooWide
  | .available => .ok .qAvail
  | .reset => .ok .reset

/-- The request that presents an access. -/
def accessRequest (a : Access) : Request := .access a.drive (accessKey a.dir a.addr) a.tag.bytes a.blk.bytes

/-- The encoder: the request by which the environment presents an operation. The access classes are presented as the access
they classify (the table's key `K`, R91). The sub-operations and layouts have no request: they are invoked inside another operation (R20,
R118, R180). -/
def encode : Instr → Option Request
  | .sentRd a | .sentWr a | .knHit a | .knDone a | .knMiss a | .phIdle a | .phClaimAccept a | .phClaimPass a
  | .phPendConfirm a | .phPendMiss a | .phActRd a | .phActWr a | .phActConflict a | .phActPass a
  | .isChannelIO a => some (accessRequest a)
  | .qPush batch => some (.push batch.bytes)
  | .qPop maxLen => some (.pop maxLen.toNat)
  | .qAvail => some .available
  | .reset => some .reset
  | .chRd _ _ | .chWrTag _ _ | .chWrBlk _ _ | .chWrReject _ _ | .chClamp _ _ | .chFwd _ _ _ _ | .hdrEnc _ | .hdrDec _
  | .blkMagic _ | .blkConfirm _ _ | .tagAnnounce _ _ | .frameRd _ _ _ _ | .frameWrTag _ _ | .frameWrBlk _ _ | .xpRd _
  | .xpWr _ => none

/-- What a request encoding `i` decodes to: an access class is one of the things an access at `isChannelIO` can be. -/
def Instr.entry : Instr → Instr
  | .sentRd a | .sentWr a | .knHit a | .knDone a | .knMiss a | .phIdle a | .phClaimAccept a | .phClaimPass a
  | .phPendConfirm a | .phPendMiss a | .phActRd a | .phActWr a | .phActConflict a | .phActPass a
  | .isChannelIO a => .isChannelIO a
  | i => i

/-- The request that a word of the opcode table stands for: the key `K` of R91 with the operands the table gives no bits all zero
(drive 0, zero buffers). A word of more than 40 bits (the 96 bits of a header, which is data inside a buffer and never an operation
presented) is no key: a bit above bit 32 says so, and the decoder refuses it (log entry 18). -/
def keyRequest (tagLen nbits w : Nat) : Request :=
  .access 0 (if nbits ≤ 40 then w else w + 2 ^ (addrW + 1)) (List.replicate tagLen 0) (List.replicate blockLen 0)

/-- The instruction the decoder reads from a word of the opcode table, under the configuration of reset. Only the access rows
have words, their keys; a word that is no key is refused (log entry 18). -/
def decodeTableWord (nbits w : Nat) : Option Instr :=
  match decode Config.reference (keyRequest Config.reference.tagLen nbits w) with
  | .ok i => some i
  | .error _ => none

end Sys2Proof
end

