-- ==== Sys2Proof/Machine/State.lean ====
section
/-! DEFINITION. The state of the block (spec/10_state.md), the reasons a step can stop, and the state after reset (R47, R260). -/

namespace Sys2Proof.Machine

/-- The handshake phase, in FN's order (R31). -/
inductive Phase where
  | idle
  | claimedDrive
  | sectorPending
  | active
deriving DecidableEq, Repr

/-- The six diagnostics, in the order of their bits (R235). -/
inductive Diag where
  | protoMismatch
  | driveConflict
  | patternMismatch
  | malformedFrame
  | lengthClamped
  | queueOverflow
deriving DecidableEq, Repr

/-- What an access, or the Channel Handler, returns: `(handled, tag', blk')` (R43, R45, R130, R180). -/
structure Reply where
  handled : Bool
  tag : Tag
  blk : Block
deriving DecidableEq, Repr

/-- The results of the operations. -/
inductive Result where
  /-- no result: `Push` (R200), `TransportWrite` (R216), `Reset` (R260) -/
  | none
  /-- an access, or the Channel Handler -/
  | reply (r : Reply)
  /-- the two buffers alone: stage B of an access, which does not decide `handled` (R112), and the produced layouts (R97 to R99) -/
  | buffers (tag : Tag) (blk : Block)
  /-- `HdrEncode` (R170) -/
  | header (h : Header)
  /-- `HdrDecode` (R172) -/
  | decoded (isValid : Bool) (length : Count)
  /-- whether a block matches a layout (R96) -/
  | matched (b : Bool)
  /-- the payload of a write frame, absent where the buffers hold no frame of that placement (R100, R101) -/
  | frame (payload : Option ByteSeq)
  /-- `Pop` (R203) -/
  | popped (bytes : ByteSeq)
  /-- `Available` (R206); the clamped length (R188) -/
  | count (n : Count)
  /-- `TransportRead`: `avail` and the bytes, `n` being their number (R215) -/
  | transport (avail : Count) (bytes : ByteSeq)
deriving DecidableEq, Repr

/-- The state. The first five fields after the configuration are the whole state of the block (R30). `result` and `diag` are
the outputs of the last operation, latched (log entry 1); `cfg` is the configuration, which no operation writes (R77, log entry 3);
`pending` and `xp` are the environment's side (log entries 2 and 9). -/
structure State where
  /-- the parameters the block was built with (R8 to R15, R265) -/
  cfg : Config
  /-- the handshake phase (R31) -/
  phase : Phase
  /-- the drive id claimed for the channel (R32) -/
  claimedDrive : DriveId
  /-- the negotiated magic sector address (R33) -/
  magicSector : Addr
  /-- the index of the next expected knock address, 0 to 4 (R34) -/
  knockIdx : Fin knockLen
  /-- the Byte Queue's contents, front first (R37) -/
  q : ByteSeq
  /-- the operations the environment has yet to present, the next one first (R36) -/
  pending : List Request
  /-- in EXTERNAL mode, the calls made to the transport so far, the last one first (R221) -/
  xp : List XpEvent
  /-- what the last operation returned -/
  result : Result
  /-- the `diag` output of the last operation: bit `i` for diagnostic `i` (R44, R235) -/
  diag : BitVec 6
deriving DecidableEq, Repr

/-- The block raises no exception, trap, abort or fault (R230): no step ends in a fault. -/
inductive Fault where
deriving DecidableEq, Repr

/-- Why a step or a meaning gives no next state. -/
inductive Refusal where
  /-- raised by an arm of `exec` whose instruction has no meaning yet; safe -/
  | notModelled (mnemonic : String)
  /-- raised by the meaning of a row of the opcode table that the table's own condition (`match`, `when`) does not select
  in this state: an access outside the class, a header the path does not apply to. No access is decoded to such a row (R110,
  R192); safe (log entry 7) -/
  | whenFalse
  /-- raised by `CH.FWD` on a length that reaches past the block, which the clamp before it rules out (R24 (g), R188); safe -/
  | payloadOutsideBlock
  /-- raised by `FRAME.RD` on a payload of more than 500 bytes, which is no read frame (R99, R182); safe -/
  | payloadTooLong
  /-- raised by `step` on a request that violates a port's shape (R21, U13): the spec asks a model to refuse it; safe -/
  | badRequest (e : DecodeError)
deriving DecidableEq, Repr

/-- The state after reset of a block built with configuration `c` (R47, R260): Idle, nothing counted, nothing queued. The
values but the phase's are the spec's decision D29 (log entry 4). Nothing is presented yet (log entry 2). -/
def State.resetWith (c : Config) : State where
  cfg := c
  phase := .idle
  claimedDrive := 0
  magicSector := 0
  knockIdx := 0
  q := ⟨[], by decide⟩
  pending := []
  xp := []
  result := .none
  diag := 0

/-- The machine right after reset, built with the reference configuration (log entry 3). -/
def State.reset : State := State.resetWith Config.reference

end Sys2Proof.Machine
end

