-- ==== Sys2Proof/Machine/Flags.lean ====
section
/-! DEFINITION. The status outputs: the six diagnostic bits (spec/60_exceptions.md R235, R236) and the latches of an operation's results. -/

namespace Sys2Proof.Machine

/-- The bit number of a diagnostic (R235). -/
def Diag.bit : Diag → Nat
  | .protoMismatch => 0
  | .driveConflict => 1
  | .patternMismatch => 2
  | .malformedFrame => 3
  | .lengthClamped => 4
  | .queueOverflow => 5

/-- The `diag` vector in which one diagnostic alone is raised. -/
def Diag.mask (d : Diag) : BitVec 6 := 1#6 <<< d.bit

/-- `diag <Name>`: set the named bit of the operation's `diag` output, nothing else (R236). This is what the block has in
place of taking an exception (R230, R241). -/
def State.raise (s : State) (d : Diag) : State := { s with diag := s.diag ||| d.mask }

/-- `diag` is cleared to 0 at the start of every operation, and the results of the one before are gone (R236, R262). -/
def State.clearOutputs (s : State) : State := { s with result := .none, diag := 0 }

/-- Latch what the operation returns. -/
def State.setResult (s : State) (r : Result) : State := { s with result := r }

end Sys2Proof.Machine
end

