-- ==== Sys2Proof/Machine/Ops.lean ====
section
/-! DEFINITION. Writes to the state, the Byte Queue's three operations (spec/44_byte_queue.md) and the two transport functions (spec/45_transport.md). -/

namespace Sys2Proof.Machine

/-- `phase <- p` (R19). -/
def State.setPhase (s : State) (p : Phase) : State := { s with phase := p }
/-- `claimed_drive <- d`. -/
def State.setClaimed (s : State) (d : DriveId) : State := { s with claimedDrive := d }
/-- `magic_sector <- a`. -/
def State.setMagic (s : State) (a : Addr) : State := { s with magicSector := a }
/-- `knock_idx <- i`. -/
def State.setKnock (s : State) (i : Fin knockLen) : State := { s with knockIdx := i }
/-- `q <- q'`. -/
def State.setQueue (s : State) (q : ByteSeq) : State := { s with q := q }
/-- The environment's remaining operations. -/
def State.setPending (s : State) (l : List Request) : State := { s with pending := l }
/-- One more call made to the external transport. -/
def State.logXp (s : State) (e : XpEvent) : State := { s with xp := e :: s.xp }

/-! ### The Byte Queue -/

/-- `q ++ batch` if it fits in `FIFO_CAP`, the sum taken without wrap-around (R200, R24 (e)). -/
def appendIfFits (cap : Count) (q batch : ByteSeq) : Option ByteSeq :=
  if h : q.bytes.length + batch.bytes.length ≤ cap.toNat then
    some ⟨q.bytes ++ batch.bytes, by have := cap.isLt; rw [List.length_append]; omega⟩
  else none

/-- `Push(bytes)`: append the whole batch if it fits, else drop the whole batch and raise `QUEUE_OVERFLOW` (R200, R201, R234). -/
def push (batch : ByteSeq) (s : State) : State :=
  match appendIfFits s.cfg.fifoCap s.q batch with
  | some q' => s.setQueue q'
  | none => s.raise .queueOverflow

/-- The `min(|q|, n)` oldest bytes (R203). -/
def frontBytes (q : ByteSeq) (n : Count) : ByteSeq := ⟨q.bytes.take n.toNat, by have := q.size; rw [List.length_take]; omega⟩

/-- What is left after the `n` oldest bytes are gone, shifted forward (R203, R204). -/
def restBytes (q : ByteSeq) (n : Count) : ByteSeq := ⟨q.bytes.drop n.toNat, by have := q.size; rw [List.length_drop]; omega⟩

/-- `Pop(maxLen)`: the oldest bytes, removed (R203). -/
def pop (maxLen : Count) (s : State) : ByteSeq × State := (frontBytes s.q maxLen, s.setQueue (restBytes s.q maxLen))

/-- `Available() = |q|` (R206), 16 bits at the port (R208). -/
def available (s : State) : Count := BitVec.ofNat _ s.q.bytes.length

/-! ### The transport -/

/-- The external transport's answer to `TransportRead(maxLen)` after the calls `log`: any `n <= maxLen`, any `n` bytes (R221). -/
def externalBytes (log : List XpEvent) (maxLen : Count) : ByteSeq :=
  ⟨(List.range (min (Config.externalLen log) maxLen.toNat)).map (Config.externalByte log), by
    have := maxLen.isLt; rw [List.length_map, List.length_range]; omega⟩

/-- `TransportRead(maxLen) -> (n, avail, bytes)` (R215). LOOPBACK: `avail` is `|q|` before the pop, the bytes are popped
(R217). EXTERNAL: the environment answers, `q` is not touched (R221). -/
def transportRead (maxLen : Count) (s : State) : (Count × ByteSeq) × State :=
  match s.cfg.transport with
  | .loopback => ((available s, (pop maxLen s).1), (pop maxLen s).2)
  | .external =>
    ((Config.externalAvail (.read maxLen :: s.xp), externalBytes (.read maxLen :: s.xp) maxLen), s.logXp (.read maxLen))

/-- `TransportWrite(bytes)` (R216). LOOPBACK: `Push` (R218, R219). EXTERNAL: the bytes are handed to the environment (R221). -/
def transportWrite (bytes : ByteSeq) (s : State) : State :=
  match s.cfg.transport with
  | .loopback => push bytes s
  | .external => s.logXp (.wrote bytes)

end Sys2Proof.Machine
end

