-- ==== Sys2Proof/Machine/Operands.lean ====
section
/-! DEFINITION. The operand forms of a channel write: where the request header lies, its placement's offset and capacity, the clamp and the payload (spec/43_channel_handler.md R186, R188, R189). -/

namespace Sys2Proof.Machine

/-- Where the payload starts in the block: 0 in tag placement, 12 in block placement (R186). -/
def payloadOffset : Placement → Nat
  | .inTag => 0
  | .inBlk => hdrLen

/-- How many payload bytes the block holds, `512 - header_size_for_this_placement`: 512 in tag placement, 500 in block placement (R103, R186). -/
def capacity (p : Placement) : Count := BitVec.ofNat _ (blockLen - payloadOffset p)

/-- The request header: the tag's if it decodes validly, else the block's if it does, else none (R102, R186). -/
def locateHeader (c : Config) (tag : Tag) (blk : Block) : Option (Placement × Count) :=
  if (hdrDecode c tag.header).1 then some (.inTag, (hdrDecode c tag.header).2)
  else if (hdrDecode c blk.header).1 then some (.inBlk, (hdrDecode c blk.header).2)
  else none

/-- `length > cap`, unsigned (R188). -/
def exceeds (p : Placement) (length : Count) : Bool := decide ((capacity p).toNat < length.toNat)

/-- `if length > cap then cap else length` (R188). -/
def clampLength (p : Placement) (length : Count) : Count := if exceeds p length then capacity p else length

/-- `blk[off .. off + len - 1]` (R189). -/
def payload (p : Placement) (len : Count) (blk : Block) : ByteSeq :=
  ⟨blk.slice (payloadOffset p) len.toNat, by have := len.isLt; rw [Buf.slice, List.length_take]; omega⟩

end Sys2Proof.Machine
end

