-- ==== Sys2Proof/Machine/Channel.lean ====
section
/-! DEFINITION. The Channel Handler (spec/43_channel_handler.md) and the meanings of its paths and steps, `CH.RD` to `CH.FWD`. -/

namespace Sys2Proof.Machine

/-- The read path: up to 500 bytes from the transport, framed in the block with `avail` as the declared length; always handled;
the tag is returned as it came (R181 to R184). -/
def channelRead (tag : Tag) (blk : Block) (s : State) : Reply × State :=
  let ((avail, bytes), s') := transportRead readMax s
  (⟨true, tag, readFrame s.cfg blk avail bytes.bytes⟩, s')

/-- The clamp: `LENGTH_CLAMPED` exactly when `length > cap` (R188). -/
def noteClamp (p : Placement) (length : Count) (s : State) : State := if exceeds p length then s.raise .lengthClamped else s

/-- Clamp and forward: what a channel write does once its header is found (R188, R189). The buffers are returned as they came
(R190). -/
def forwardFrame (p : Placement) (length : Count) (tag : Tag) (blk : Block) (s : State) : Reply × State :=
  (⟨true, tag, blk⟩, transportWrite (payload p (clampLength p length) blk) (noteClamp p length s))

/-- The rejection: `MALFORMED_FRAME`, nothing forwarded, nothing changed, not handled (R187). -/
def rejectFrame (tag : Tag) (blk : Block) (s : State) : Reply × State := (⟨false, tag, blk⟩, s.raise .malformedFrame)

/-- The write path (R186 to R190). -/
def channelWrite (tag : Tag) (blk : Block) (s : State) : Reply × State :=
  match locateHeader s.cfg tag blk with
  | some (p, length) => forwardFrame p length tag blk s
  | none => rejectFrame tag blk s

/-- `ChannelHandle(tag, blk, dir)` (R180, R192). -/
def channelHandle (dir : Dir) (tag : Tag) (blk : Block) (s : State) : Reply × State :=
  match dir with
  | .read => channelRead tag blk s
  | .write => channelWrite tag blk s

/-- The end of an operation that returns a reply. -/
def replyWith (rs : Reply × State) : Host.Outcome State Fault Refusal := .next (rs.2.setResult (.reply rs.1))

/-- `CH.RD` (R181). -/
def execChRd (tag : Tag) (blk : Block) (s : State) : Host.Outcome State Fault Refusal :=
  replyWith (channelRead tag blk s.clearOutputs)

/-- `CH.WR.TAG`: the write path when the tag holds a valid request header (R186). -/
def execChWrTag (tag : Tag) (blk : Block) (s : State) : Host.Outcome State Fault Refusal :=
  if (hdrDecode s.cfg tag.header).1 then
    replyWith (forwardFrame .inTag (hdrDecode s.cfg tag.header).2 tag blk s.clearOutputs)
  else .refused .whenFalse

/-- `CH.WR.BLK`: the write path when the tag holds none and the block does (R186). -/
def execChWrBlk (tag : Tag) (blk : Block) (s : State) : Host.Outcome State Fault Refusal :=
  if !(hdrDecode s.cfg tag.header).1 && (hdrDecode s.cfg blk.header).1 then
    replyWith (forwardFrame .inBlk (hdrDecode s.cfg blk.header).2 tag blk s.clearOutputs)
  else .refused .whenFalse

/-- `CH.WR.REJECT`: the write path when neither does (R187). -/
def execChWrReject (tag : Tag) (blk : Block) (s : State) : Host.Outcome State Fault Refusal :=
  if !(hdrDecode s.cfg tag.header).1 && !(hdrDecode s.cfg blk.header).1 then
    replyWith (rejectFrame tag blk s.clearOutputs)
  else .refused .whenFalse

/-- `CH.CLAMP`: the clamped length (R188). -/
def execChClamp (length : Count) (p : Placement) (s : State) : Host.Outcome State Fault Refusal :=
  .next ((noteClamp p length s.clearOutputs).setResult (.count (clampLength p length)))

/-- `CH.FWD`: hand `blk[off .. off + len - 1]` to the transport; handled (R189). -/
def execChFwd (p : Placement) (len : Count) (tag : Tag) (blk : Block) (s : State) : Host.Outcome State Fault Refusal :=
  if len.toNat ≤ (capacity p).toNat then
    replyWith (⟨true, tag, blk⟩, transportWrite (payload p len blk) s.clearOutputs)
  else .refused .payloadOutsideBlock

end Sys2Proof.Machine
end

