-- ==== Sys2Proof/Machine/Classify.lean ====
section
/-! DEFINITION. The classification of an access, the block's opcode map (spec/30_encoding.md R110 to R118). -/

namespace Sys2Proof.Machine

/-- The fourteen access classes (R111 to R116). -/
inductive AccessClass where
  | sentRd | sentWr
  | knHit | knDone | knMiss
  | phIdle | phClaimAccept | phClaimPass | phPendConfirm | phPendMiss | phActRd | phActWr | phActConflict | phActPass
deriving DecidableEq, Repr

/-- The three stages of the classification (R110). -/
inductive Stage where
  | sentinel
  | knock
  | dispatch
deriving DecidableEq, Repr

/-- The stage a class belongs to (R111 to R116). -/
def AccessClass.stage : AccessClass → Stage
  | .sentRd | .sentWr => .sentinel
  | .knHit | .knDone | .knMiss => .knock
  | .phIdle | .phClaimAccept | .phClaimPass | .phPendConfirm | .phPendMiss | .phActRd | .phActWr | .phActConflict
  | .phActPass => .dispatch

/-- `KNOCK[knock_idx]`, the address expected next. -/
def State.expected (s : State) : Addr := s.cfg.knock[s.knockIdx]

/-- `addr != SENTINEL`: stages B and C run only then (R112). -/
def State.ordinary (s : State) (a : Access) : Bool := a.addr != s.cfg.sentinel

/-- The condition of each class, as its rule states it: R111 (stage A), R112 (stage B), R113 to R116 (stage C, where the state is
the one stage B left, R142). -/
def AccessClass.holds (k : AccessClass) (s : State) (a : Access) : Bool :=
  match k with
  | .sentRd => a.addr == s.cfg.sentinel && a.dir == .read
  | .sentWr => a.addr == s.cfg.sentinel && a.dir == .write
  | .knHit => s.ordinary a && a.addr == s.expected && decide (s.knockIdx < knockLast)
  | .knDone => s.ordinary a && a.addr == s.cfg.knock[knockLen - 1] && s.knockIdx == knockLast
  | .knMiss => s.ordinary a && a.addr != s.expected
  | .phIdle => s.ordinary a && s.phase == .idle
  | .phClaimAccept => s.ordinary a && s.phase == .claimedDrive && (a.dir == .write && a.drive == s.claimedDrive)
  | .phClaimPass => s.ordinary a && s.phase == .claimedDrive && !(a.dir == .write && a.drive == s.claimedDrive)
  | .phPendConfirm => s.ordinary a && s.phase == .sectorPending &&
      (a.dir == .read && a.drive == s.claimedDrive && a.addr == s.magicSector)
  | .phPendMiss => s.ordinary a && s.phase == .sectorPending &&
      !(a.dir == .read && a.drive == s.claimedDrive && a.addr == s.magicSector)
  | .phActRd => s.ordinary a && s.phase == .active && a.addr == s.magicSector && a.drive == s.claimedDrive && a.dir == .read
  | .phActWr => s.ordinary a && s.phase == .active && a.addr == s.magicSector && a.drive == s.claimedDrive && a.dir == .write
  | .phActConflict => s.ordinary a && s.phase == .active && a.addr == s.magicSector && a.drive != s.claimedDrive
  | .phActPass => s.ordinary a && s.phase == .active && a.addr != s.magicSector

/-- The operation of a class on an access: the row of the opcode table. -/
def AccessClass.instr (k : AccessClass) (a : Access) : Instr :=
  match k with
  | .sentRd => .sentRd a
  | .sentWr => .sentWr a
  | .knHit => .knHit a
  | .knDone => .knDone a
  | .knMiss => .knMiss a
  | .phIdle => .phIdle a
  | .phClaimAccept => .phClaimAccept a
  | .phClaimPass => .phClaimPass a
  | .phPendConfirm => .phPendConfirm a
  | .phPendMiss => .phPendMiss a
  | .phActRd => .phActRd a
  | .phActWr => .phActWr a
  | .phActConflict => .phActConflict a
  | .phActPass => .phActPass a

/-- The access as stage C finds it: the buffers are those stage B left (R142). -/
def seenAfter (a : Access) (s : State) : Access :=
  match s.result with
  | .buffers tag blk => { a with tag := tag, blk := blk }
  | _ => a

end Sys2Proof.Machine
end

