-- ==== Sys2Proof/Machine/Codec.lean ====
section
/-! DEFINITION. The meanings of the Header Codec `HDR.ENC`, `HDR.DEC` (spec/42_header_codec.md) and of the layouts (spec/30_encoding.md R96 to R101). None of them writes the block's state. -/

namespace Sys2Proof.Machine

/-- `HdrEncode(length)` (R170). -/
def execHdrEnc (length : Count) (s : State) : Host.Outcome State Fault Refusal :=
  .next (s.clearOutputs.setResult (.header (hdrEncode s.cfg length)))

/-- `HdrDecode(h)` (R172). -/
def execHdrDec (h : Header) (s : State) : Host.Outcome State Fault Refusal :=
  .next (s.clearOutputs.setResult (.decoded (hdrDecode s.cfg h).1 (hdrDecode s.cfg h).2))

/-- The magic-pattern check: a mismatch raises `PATTERN_MISMATCH` and has no other effect (R147). -/
def checkMagic (blk : Block) (s : State) : State := if isMagicBlock s.cfg blk then s else s.raise .patternMismatch

/-- `BLK.MAGIC`: whether the block is the magic pattern (R96), reported as R147 reports it. -/
def execBlkMagic (blk : Block) (s : State) : Host.Outcome State Fault Refusal :=
  .next ((checkMagic blk s.clearOutputs).setResult (.matched (isMagicBlock s.cfg blk)))

/-- `BLK.CONFIRM`: the confirming reply in the two buffers (R97). -/
def execBlkConfirm (tag : Tag) (blk : Block) (s : State) : Host.Outcome State Fault Refusal :=
  .next (s.clearOutputs.setResult (.buffers (tag.putHeader s.cfg confirmLen) (confirmBlock s.cfg blk s.magicSector)))

/-- `TAG.ANNOUNCE`: the presence announcement in the tag buffer; the block is not written (R98). -/
def execTagAnnounce (tag : Tag) (blk : Block) (s : State) : Host.Outcome State Fault Refusal :=
  .next (s.clearOutputs.setResult (.buffers (tag.putHeader s.cfg announceLen) blk))

/-- `FRAME.RD`: a read frame in the block; the tag is not written (R99). -/
def execFrameRd (avail : Count) (bytes : ByteSeq) (tag : Tag) (blk : Block) (s : State) : Host.Outcome State Fault Refusal :=
  if bytes.bytes.length ≤ framePayload then
    .next (s.clearOutputs.setResult (.buffers tag (readFrame s.cfg blk avail bytes.bytes)))
  else .refused .payloadTooLong

/-- `FRAME.WR.TAG`: the payload of a write frame in tag placement, if `tag[0..3]` is `REQ_MARKER` (R100). -/
def execFrameWrTag (tag : Tag) (blk : Block) (s : State) : Host.Outcome State Fault Refusal :=
  .next (s.clearOutputs.setResult (.frame
    (if (hdrDecode s.cfg tag.header).1 then
      some (payload .inTag (clampLength .inTag (hdrDecode s.cfg tag.header).2) blk)
    else none)))

/-- `FRAME.WR.BLK`: the payload of a write frame in block placement, if `tag[0..3]` is not `REQ_MARKER` and `blk[0..3]` is (R101). -/
def execFrameWrBlk (tag : Tag) (blk : Block) (s : State) : Host.Outcome State Fault Refusal :=
  .next (s.clearOutputs.setResult (.frame
    (if !(hdrDecode s.cfg tag.header).1 && (hdrDecode s.cfg blk.header).1 then
      some (payload .inBlk (clampLength .inBlk (hdrDecode s.cfg blk.header).2) blk)
    else none)))

end Sys2Proof.Machine
end

