-- ==== Sys2Proof/Machine/Handshake.lean ====
section
/-! DEFINITION. The Handshake State Machine (spec/41_handshake.md): the entry point `isChannelIO` and the fourteen access classes. -/

namespace Sys2Proof.Machine

/-! ### The effects of the steps -/

/-- Step 1, the sentinel address: the Channel Handler, then `phase` to Idle unless it is Active; handled whatever the Channel
Handler returned; `knock_idx`, `claimed_drive`, `magic_sector` keep their values (R131 to R134). -/
def sentinelAccess (a : Access) (s : State) : Reply × State :=
  let (r, s') := channelHandle a.dir a.tag a.blk s
  ({ r with handled := true }, if s'.phase = .active then s' else s'.setPhase .idle)

/-- `knock_idx <- knock_idx + 1` (R136). -/
def knockHit (s : State) : State := s.setKnock (s.knockIdx + 1)

/-- `knock_idx <- 0`, with no second comparison with `KNOCK[0]` (R137). -/
def knockMiss (s : State) : State := s.setKnock 0

/-- The knock is complete: `knock_idx <- 0; phase <- ClaimedDrive; claimed_drive <- drive; magic_sector <- 0` (R140). -/
def knockDone (d : DriveId) (s : State) : State := (((s.setKnock 0).setPhase .claimedDrive).setClaimed d).setMagic 0

/-- Step 2, knock detection: the state it leaves, and the tag, into which a completed knock writes the announcement
`tag[0..11] <- HdrEncode(0)` (R136, R137, R140, R141). -/
def knockStep (a : Access) (s : State) : Tag × State :=
  if a.addr = s.expected then
    if s.knockIdx = knockLast then (a.tag.putHeader s.cfg announceLen, knockDone a.drive s) else (a.tag, knockHit s)
  else (a.tag, knockMiss s)

/-- Step 4: not handled; the buffers go back as they stand (R158). -/
def passThrough (a : Access) (s : State) : Reply × State := (⟨false, a.tag, a.blk⟩, s)

/-- The accepted write in ClaimedDrive: the pattern is checked and not enforced, `magic_sector <- addr; phase <- SectorPending`;
handled; the buffers are not modified (R146, R147). -/
def acceptClaim (a : Access) (s : State) : Reply × State :=
  (⟨true, a.tag, a.blk⟩, ((checkMagic a.blk s).setMagic a.addr).setPhase .sectorPending)

/-- The confirming read: the reply of R97 in the buffers, `phase <- Active`; handled (R152). -/
def confirmClaim (a : Access) (s : State) : Reply × State :=
  (⟨true, a.tag.putHeader s.cfg confirmLen, confirmBlock s.cfg a.blk s.magicSector⟩, s.setPhase .active)

/-- Step 3, phase dispatch, and step 4 behind it (R144 to R158). -/
def phaseDispatch (a : Access) (s : State) : Reply × State :=
  match s.phase with
  | .idle => passThrough a s
  | .claimedDrive => if a.dir = .write ∧ a.drive = s.claimedDrive then acceptClaim a s else passThrough a s
  | .sectorPending =>
    if a.dir = .read ∧ a.drive = s.claimedDrive ∧ a.addr = s.magicSector then confirmClaim a s
    else passThrough a (s.raise .protoMismatch)
  | .active =>
    if a.addr = s.magicSector then
      if a.drive = s.claimedDrive then channelHandle a.dir a.tag a.blk s
      else passThrough a (s.raise .driveConflict)
    else passThrough a s

/-! ### The entry point -/

/-- Steps 1 to 4 in their order (R130, R162). Step 3 sees the state and the tag that step 2 left (R142). -/
def accessSteps (a : Access) (s : State) : Reply × State :=
  if a.addr = s.cfg.sentinel then sentinelAccess a s
  else
    let (tag, s') := knockStep a s
    phaseDispatch { a with tag := tag } s'

/-- `isChannelIO(drive, addr, tag, blk, dir) -> (handled, tag', blk', diag)` (R130). -/
def execIsChannelIO (a : Access) (s : State) : Host.Outcome State Fault Refusal := replyWith (accessSteps a s.clearOutputs)

/-! ### The access classes -/

/-- `SENT.RD` (R111, R131). -/
def execSentRd (a : Access) (s : State) : Host.Outcome State Fault Refusal :=
  if AccessClass.sentRd.holds s a then replyWith (sentinelAccess a s.clearOutputs) else .refused .whenFalse

/-- `SENT.WR` (R111, R131, R132). -/
def execSentWr (a : Access) (s : State) : Host.Outcome State Fault Refusal :=
  if AccessClass.sentWr.holds s a then replyWith (sentinelAccess a s.clearOutputs) else .refused .whenFalse

/-- `KN.HIT` (R112, R136). -/
def execKnHit (a : Access) (s : State) : Host.Outcome State Fault Refusal :=
  if AccessClass.knHit.holds s a then .next ((knockHit s.clearOutputs).setResult (.buffers a.tag a.blk))
  else .refused .whenFalse

/-- `KN.DONE` (R112, R140). -/
def execKnDone (a : Access) (s : State) : Host.Outcome State Fault Refusal :=
  if AccessClass.knDone.holds s a then
    .next ((knockDone a.drive s.clearOutputs).setResult (.buffers (a.tag.putHeader s.cfg announceLen) a.blk))
  else .refused .whenFalse

/-- `KN.MISS` (R112, R137). -/
def execKnMiss (a : Access) (s : State) : Host.Outcome State Fault Refusal :=
  if AccessClass.knMiss.holds s a then .next ((knockMiss s.clearOutputs).setResult (.buffers a.tag a.blk))
  else .refused .whenFalse

/-- `PH.IDLE` (R113, R144). -/
def execPhIdle (a : Access) (s : State) : Host.Outcome State Fault Refusal :=
  if AccessClass.phIdle.holds s a then replyWith (passThrough a s.clearOutputs) else .refused .whenFalse

/-- `PH.CLAIM.ACCEPT` (R114, R146, R147). -/
def execPhClaimAccept (a : Access) (s : State) : Host.Outcome State Fault Refusal :=
  if AccessClass.phClaimAccept.holds s a then replyWith (acceptClaim a s.clearOutputs) else .refused .whenFalse

/-- `PH.CLAIM.PASS` (R114, R148). -/
def execPhClaimPass (a : Access) (s : State) : Host.Outcome State Fault Refusal :=
  if AccessClass.phClaimPass.holds s a then replyWith (passThrough a s.clearOutputs) else .refused .whenFalse

/-- `PH.PEND.CONFIRM` (R115, R150, R152). -/
def execPhPendConfirm (a : Access) (s : State) : Host.Outcome State Fault Refusal :=
  if AccessClass.phPendConfirm.holds s a then replyWith (confirmClaim a s.clearOutputs) else .refused .whenFalse

/-- `PH.PEND.MISS` (R115, R153). -/
def execPhPendMiss (a : Access) (s : State) : Host.Outcome State Fault Refusal :=
  if AccessClass.phPendMiss.holds s a then replyWith (passThrough a (s.clearOutputs.raise .protoMismatch))
  else .refused .whenFalse

/-- `PH.ACT.RD` (R116, R154). -/
def execPhActRd (a : Access) (s : State) : Host.Outcome State Fault Refusal :=
  if AccessClass.phActRd.holds s a then replyWith (channelRead a.tag a.blk s.clearOutputs) else .refused .whenFalse

/-- `PH.ACT.WR` (R116, R154). -/
def execPhActWr (a : Access) (s : State) : Host.Outcome State Fault Refusal :=
  if AccessClass.phActWr.holds s a then replyWith (channelWrite a.tag a.blk s.clearOutputs) else .refused .whenFalse

/-- `PH.ACT.CONFLICT` (R116, R156). -/
def execPhActConflict (a : Access) (s : State) : Host.Outcome State Fault Refusal :=
  if AccessClass.phActConflict.holds s a then replyWith (passThrough a (s.clearOutputs.raise .driveConflict))
  else .refused .whenFalse

/-- `PH.ACT.PASS` (R116, R157). -/
def execPhActPass (a : Access) (s : State) : Host.Outcome State Fault Refusal :=
  if AccessClass.phActPass.holds s a then replyWith (passThrough a s.clearOutputs) else .refused .whenFalse

end Sys2Proof.Machine
end

