-- ==== Sys2Proof/Machine/Queue.lean ====
section
/-! DEFINITION. The meanings of the queue port `Q.PUSH`, `Q.POP`, `Q.AVAIL` (spec/44_byte_queue.md, R222) and of the transport functions `XP.RD`, `XP.WR` (spec/45_transport.md). -/

namespace Sys2Proof.Machine

/-- `Push(bytes)` at the queue port (R200, R222). -/
def execQPush (batch : ByteSeq) (s : State) : Host.Outcome State Fault Refusal := .next (push batch s.clearOutputs)

/-- `Pop(maxLen)` at the queue port (R203, R222). -/
def execQPop (maxLen : Count) (s : State) : Host.Outcome State Fault Refusal :=
  let (bytes, s') := pop maxLen s.clearOutputs
  .next (s'.setResult (.popped bytes))

/-- `Available()` at the queue port (R206, R222). -/
def execQAvail (s : State) : Host.Outcome State Fault Refusal := .next (s.clearOutputs.setResult (.count (available s)))

/-- `TransportRead(maxLen)` (R215). -/
def execXpRd (maxLen : Count) (s : State) : Host.Outcome State Fault Refusal :=
  let ((avail, bytes), s') := transportRead maxLen s.clearOutputs
  .next (s'.setResult (.transport avail bytes))

/-- `TransportWrite(bytes)` (R216). -/
def execXpWr (bytes : ByteSeq) (s : State) : Host.Outcome State Fault Refusal := .next (transportWrite bytes s.clearOutputs)

end Sys2Proof.Machine
end

