-- ==== Sys2Proof/Machine/Reset.lean ====
section
/-! DEFINITION. The meaning of `RESET` (spec/70_reset_and_hazards.md R260, R261). -/

namespace Sys2Proof.Machine

/-- `phase <- Idle; knock_idx <- 0; q <- empty; claimed_drive <- 0; magic_sector <- 0`, no results, `diag = 0` (R260). The configuration is
fixed at build time (R265); what the environment holds, its coming operations and the external transport, is not the block's
to reset (log entry 19). -/
def execReset (s : State) : Host.Outcome State Fault Refusal :=
  .next (((((s.clearOutputs.setPhase .idle).setKnock 0).setQueue ⟨[], by decide⟩).setClaimed 0).setMagic 0)

end Sys2Proof.Machine
end

