-- ==== Sys2Proof/Machine/Dispatch.lean ====
section
/-! DEFINITION. The dispatch of an operation to its meaning: one arm per row of spec/opcode_table.json. -/

namespace Sys2Proof.Machine

def exec (i : Instr) (s : State) : Host.Outcome State Fault Refusal :=
  match i with
  | .sentRd a => Sys2Proof.Machine.execSentRd a s
  | .sentWr a => Sys2Proof.Machine.execSentWr a s
  | .knHit a => Sys2Proof.Machine.execKnHit a s
  | .knDone a => Sys2Proof.Machine.execKnDone a s
  | .knMiss a => Sys2Proof.Machine.execKnMiss a s
  | .phIdle a => Sys2Proof.Machine.execPhIdle a s
  | .phClaimAccept a => Sys2Proof.Machine.execPhClaimAccept a s
  | .phClaimPass a => Sys2Proof.Machine.execPhClaimPass a s
  | .phPendConfirm a => Sys2Proof.Machine.execPhPendConfirm a s
  | .phPendMiss a => Sys2Proof.Machine.execPhPendMiss a s
  | .phActRd a => Sys2Proof.Machine.execPhActRd a s
  | .phActWr a => Sys2Proof.Machine.execPhActWr a s
  | .phActConflict a => Sys2Proof.Machine.execPhActConflict a s
  | .phActPass a => Sys2Proof.Machine.execPhActPass a s
  | .isChannelIO a => Sys2Proof.Machine.execIsChannelIO a s
  | .chRd t b => Sys2Proof.Machine.execChRd t b s
  | .chWrTag t b => Sys2Proof.Machine.execChWrTag t b s
  | .chWrBlk t b => Sys2Proof.Machine.execChWrBlk t b s
  | .chWrReject t b => Sys2Proof.Machine.execChWrReject t b s
  | .chClamp l p => Sys2Proof.Machine.execChClamp l p s
  | .chFwd p l t b => Sys2Proof.Machine.execChFwd p l t b s
  | .hdrEnc l => Sys2Proof.Machine.execHdrEnc l s
  | .hdrDec h => Sys2Proof.Machine.execHdrDec h s
  | .blkMagic b => Sys2Proof.Machine.execBlkMagic b s
  | .blkConfirm t b => Sys2Proof.Machine.execBlkConfirm t b s
  | .tagAnnounce t b => Sys2Proof.Machine.execTagAnnounce t b s
  | .frameRd n y t b => Sys2Proof.Machine.execFrameRd n y t b s
  | .frameWrTag t b => Sys2Proof.Machine.execFrameWrTag t b s
  | .frameWrBlk t b => Sys2Proof.Machine.execFrameWrBlk t b s
  | .qPush y => Sys2Proof.Machine.execQPush y s
  | .qPop n => Sys2Proof.Machine.execQPop n s
  | .qAvail => Sys2Proof.Machine.execQAvail s
  | .xpRd n => Sys2Proof.Machine.execXpRd n s
  | .xpWr y => Sys2Proof.Machine.execXpWr y s
  | .reset => Sys2Proof.Machine.execReset s

end Sys2Proof.Machine
end

