-- ==== Sys2Proof/Machine/Step.lean ====
section
/-! DEFINITION. One step of the machine: the next operation the environment presents is decoded and run (spec/00_scope.md R20, R22; spec/10_state.md R36). -/

namespace Sys2Proof.Machine

/-- One step. The oldest request is taken, decoded and run to completion (R20); a request that violates a port's shape is refused
(R21). With nothing presented the block waits, and nothing changes (R22, R260; log entry 2). -/
def step (s : State) : Host.Outcome State Fault Refusal :=
  match s.pending with
  | [] => .next s
  | r :: rest =>
    match decode s.cfg r with
    | .ok i => exec i (s.setPending rest)
    | .error e => .refused (.badRequest e)

/-- The word of a table row put where the next step takes its operation: as the request the word stands for, before every
other (log entry 18). -/
def State.withFetchWord (s : State) (nbits w : Nat) : State := s.setPending (keyRequest s.cfg.tagLen nbits w :: s.pending)

end Sys2Proof.Machine
end

