-- ==== Sys2Proof/Machine/Pseudo.lean ====
section
/-! DEFINITION. The textual notation for accesses and its pseudo-operations (spec/30_encoding.md R124, R126). They are not part of the hardware (D31); the machine does not use them. -/

namespace Sys2Proof.Machine

/-- The filler byte of an omitted buffer (R124). -/
def filler : Byte := 0xEE

/-- A block that begins with `bs`, the rest filler. DESIGN CHOICE (log entry 26): of more than 512 bytes the first 512 are the block and the
rest is dropped; R124 and R126 say nothing of them. -/
def blockOf (bs : List Byte) : Block :=
  ⟨(bs ++ List.replicate blockLen filler).take blockLen, by rw [List.length_take, List.length_append, List.length_replicate]; omega⟩

/-- A tag that begins with `bs`, the rest filler, of `n` bytes and at least 12. DESIGN CHOICE (log entry 26): bytes past the tag's length are
dropped, of which R124 says nothing. -/
def tagOf (n : Nat) (bs : List Byte) : Tag :=
  ⟨(bs ++ List.replicate (max n hdrLen) filler).take (max n hdrLen), by
    have : 12 ≤ max n hdrLen := Nat.le_max_right _ _
    rw [List.length_take, List.length_append, List.length_replicate]; omega⟩

/-- `RD d, a`: the buffers omitted (R124). -/
def accessRD (c : Config) (d : DriveId) (a : Addr) : Access := ⟨d, a, .read, tagOf c.tagLen [], blockOf []⟩

/-- `WR d, a, tag=..., blk=...` (R124). -/
def accessWR (c : Config) (d : DriveId) (a : Addr) (tag blk : List Byte) : Access := ⟨d, a, .write, tagOf c.tagLen tag, blockOf blk⟩

/-- A request header, as a host writes it: `Q 00 00 BE16(length) 00 00 00 00` (R126). -/
def requestHeader (c : Config) (length : Count) : List Byte := c.reqMarker.bytes ++ zeros reservedLen ++ be16 length ++ zeros trailerLen

/-- `KNOCK5 d` (R126). -/
def knock5 (c : Config) (d : DriveId) : List Access := c.knock.toList.map (accessRD c d)

/-- `CLAIM d, a` (R126). -/
def claimOp (c : Config) (d : DriveId) (a : Addr) : Access := accessWR c d a [] (magicPattern c)

/-- `CONFIRM d, a` (R126). -/
def confirmOp (c : Config) (d : DriveId) (a : Addr) : Access := accessRD c d a

/-- `SENDT d, a, <payload>` (R126). DESIGN CHOICE (log entry 26): for a payload longer than the block, to which R126 sets no bound, the block
is cut at 512 bytes, and the declared length, which R18 defines to 65535 only, is the payload's length modulo 65536. -/
def sendT (c : Config) (d : DriveId) (a : Addr) (bs : List Byte) : Access :=
  accessWR c d a (requestHeader c (BitVec.ofNat _ bs.length)) bs

/-- `SENDB d, a, <payload>` (R126). DESIGN CHOICE (log entry 26): for a payload of more than 500 bytes the block is cut at 512 bytes behind
the header, and the declared length is the payload's length modulo 65536, as for `sendT`. -/
def sendB (c : Config) (d : DriveId) (a : Addr) (bs : List Byte) : Access :=
  accessWR c d a (List.replicate hdrLen filler) (requestHeader c (BitVec.ofNat _ bs.length) ++ bs)

/-- `RECV d, a` (R126). -/
def recvOp (c : Config) (d : DriveId) (a : Addr) : Access := accessRD c d a

end Sys2Proof.Machine
end

