-- ==== Sys2Proof/Safety.lean ====
section
/-! DEFINITION. What claims about the block are stated in: frames, the invariant of the session and the queue, and runs of several operations. -/

namespace Sys2Proof.Machine

/-- The session record is the same (R31 to R33). -/
def SameSession (s t : State) : Prop :=
  t.phase = s.phase ∧ t.claimedDrive = s.claimedDrive ∧ t.magicSector = s.magicSector

/-- The whole state of the block is the same (R30). -/
def SameBlock (s t : State) : Prop := SameSession s t ∧ t.knockIdx = s.knockIdx ∧ t.q = s.q

/-- The configuration and the environment's coming operations are the same. -/
def SameSetting (s t : State) : Prop := t.cfg = s.cfg ∧ t.pending = s.pending

/-- Nothing changed but the outputs `result` and `diag`. -/
def OnlyOutputs (s t : State) : Prop := SameBlock s t ∧ SameSetting s t ∧ t.xp = s.xp

/-- The bytes `bs` were handed to the transport, `clamped` saying whether the length was cut before: LOOPBACK pushes them, whole
or not at all (R218, R219), EXTERNAL hands them to the environment (R221). The diagnostics are `LENGTH_CLAMPED` (bit 4) and
`QUEUE_OVERFLOW` (bit 5), and nothing else changed but `result`. -/
def Forwarded (s t : State) (bs : List Byte) (clamped : Bool) : Prop :=
  SameSession s t ∧ t.knockIdx = s.knockIdx ∧ SameSetting s t ∧
  (s.cfg.transport = .loopback → s.q.bytes.length + bs.length ≤ s.cfg.fifoCap.toNat →
    t.q.bytes = s.q.bytes ++ bs ∧ t.xp = s.xp ∧ t.diag = if clamped then 16#6 else 0#6) ∧
  (s.cfg.transport = .loopback → s.cfg.fifoCap.toNat < s.q.bytes.length + bs.length →
    t.q = s.q ∧ t.xp = s.xp ∧ t.diag = if clamped then 48#6 else 32#6) ∧
  (s.cfg.transport = .external →
    t.q = s.q ∧ (∃ e : ByteSeq, e.bytes = bs ∧ t.xp = .wrote e :: s.xp) ∧ t.diag = if clamped then 16#6 else 0#6)

/-- The row of the Channel Handler that handles a direction and two buffers (R181, R186, R187). -/
def channelRow (c : Config) (dir : Dir) (tag : Tag) (blk : Block) : Instr :=
  match dir with
  | .read => .chRd tag blk
  | .write =>
    if (hdrDecode c tag.header).1 then .chWrTag tag blk
    else if (hdrDecode c blk.header).1 then .chWrBlk tag blk
    else .chWrReject tag blk

/-- The access did what the Channel Handler alone does with its buffers in this state: the same transport effect, the same
diagnostics, the same buffers returned; `h` is its `handled` (R131, R154). -/
def DelegatedToChannel (s t : State) (a : Access) (r : Reply) (h : Bool) : Prop :=
  ∃ u, exec (channelRow s.cfg a.dir a.tag a.blk) s = .next u ∧ u.result = .reply ⟨h, r.tag, r.blk⟩ ∧
    t.q = u.q ∧ t.xp = u.xp ∧ t.diag = u.diag

/-- What every operation keeps true: the queue never exceeds its capacity (R39); the magic sector is 0 in ClaimedDrive and is not
the sentinel in SectorPending and Active (R33, R163 (f)); the claimed drive is a drive id (R14, R32). The range of `knock_idx`
(R34) is its type. -/
structure Inv (s : State) : Prop where
  queue_fits : s.q.bytes.length ≤ s.cfg.fifoCap.toNat
  magic_zero : s.phase = .claimedDrive → s.magicSector = 0
  magic_ordinary : s.phase = .sectorPending ∨ s.phase = .active → s.magicSector ≠ s.cfg.sentinel
  claimed_fits : driveFits s.cfg s.claimedDrive = true

/-- Operations run one after another, each in the state the one before left (R22, R75). -/
def runAll : List Instr → State → Host.Outcome State Fault Refusal
  | [], s => .next s
  | i :: is, s =>
    match exec i s with
    | .next t => runAll is t
    | .fault f => .fault f
    | .refused r => .refused r

/-- The bytes an operation on the queue port adds to the queue: the whole batch, or nothing where it does not fit (R200, R201). -/
def bytesIn (i : Instr) (s : State) : List Byte :=
  match i with
  | .qPush batch => if s.q.bytes.length + batch.bytes.length ≤ s.cfg.fifoCap.toNat then batch.bytes else []
  | _ => []

/-- The bytes the last operation gave out at the queue port (R203). -/
def bytesOut (t : State) : List Byte :=
  match t.result with
  | .popped bs => bs.bytes
  | _ => []

/-- An operation of the queue port (R222). -/
def isQueueOp : Instr → Bool
  | .qPush _ | .qPop _ | .qAvail => true
  | _ => false

/-- A run of operations with what entered and left the queue at its port, in order: `(in, out, last state)`. -/
def queueTrace : List Instr → State → Option (List Byte × List Byte × State)
  | [], s => some ([], [], s)
  | i :: is, s =>
    match exec i s with
    | .next t =>
      match queueTrace is t with
      | some (ins, outs, u) => some (bytesIn i s ++ ins, bytesOut t ++ outs, u)
      | none => none
    | _ => none

/-- The payload a channel write of access `a` forwards, none where its buffers hold no request header (R186, R188, R189). -/
def writtenPayload (c : Config) (a : Access) : Option (List Byte) :=
  match locateHeader c a.tag a.blk with
  | some (p, length) => some (payload p (clampLength p length) a.blk).bytes
  | none => none

/-- The payload a host takes out of a read frame: `min(length, 500)` bytes from offset 12 (R183, R280). -/
def receivedPayload (blk : Block) : List Byte :=
  blk.slice hdrLen (min (ube16 (blk.get lengthOffset (by decide)) (blk.get (lengthOffset + 1) (by decide))).toNat framePayload)

/-- The payload the last operation returned in a read frame. -/
def bytesReceived (t : State) : List Byte :=
  match t.result with
  | .reply r => receivedPayload r.blk
  | _ => []

/-- Channel reads one after another, with the payloads a host takes out of their frames, in order. -/
def readTrace : List Access → State → Option (List Byte × State)
  | [], s => some ([], s)
  | a :: as, s =>
    match exec (.isChannelIO a) s with
    | .next t =>
      match readTrace as t with
      | some (bs, u) => some (bytesReceived t ++ bs, u)
      | none => none
    | _ => none

end Sys2Proof.Machine
end

