-- ==== Sys2Proof/Certificates/Slice0/Obligations.lean ====
section
/-! DEFINITION. The statements about the block for the provers. Each docstring names the rule of spec/ it rests on; "D<n>" is a decision of spec/92_eei_decisions.md, which is the spec's own and not FN's. -/

open Sys2Proof Sys2Proof.Machine

/-! ### The Header Codec -/

/-- R170: `HdrEncode` writes the reply marker, two zero bytes, the length big-endian, four zero bytes, and nothing of the state. -/
def Obligations.HdrEncodeWritesReplyHeader : Prop :=
  ∀ (length : Count) (s : State), ∃ t h, exec (.hdrEnc length) s = .next t ∧ t.result = .header h ∧
    h.bytes.take 4 = s.cfg.replyMarker.bytes ∧
    h.bytes[4]? = some 0 ∧ h.bytes[5]? = some 0 ∧
    h.bytes[6]? = some (length.extractLsb' 8 8) ∧ h.bytes[7]? = some (length.extractLsb' 0 8) ∧
    (∀ i, 8 ≤ i → i < 12 → h.bytes[i]? = some 0) ∧
    t.diag = 0 ∧ OnlyOutputs s t

/-- R172 (D27): `HdrDecode` is valid exactly on the request marker; the length is `h[6] * 256 + h[7]` in both cases. -/
def Obligations.HdrDecodeReadsMarkerAndLength : Prop :=
  ∀ (h : Header) (s : State), ∃ t v length, exec (.hdrDec h) s = .next t ∧ t.result = .decoded v length ∧
    (v = true ↔ ∀ i, i < 4 → h.bytes[i]? = s.cfg.reqMarker.bytes[i]?) ∧
    length.toNat = (h.get 6 (by decide)).toNat * 256 + (h.get 7 (by decide)).toNat ∧
    t.diag = 0 ∧ OnlyOutputs s t

/-- R174: the length comes back through encode and decode, for every 16-bit length. -/
def Obligations.HeaderLengthRoundTrip : Prop :=
  ∀ (length : Count) (s : State), ∃ t h u v, exec (.hdrEnc length) s = .next t ∧ t.result = .header h ∧
    exec (.hdrDec h) t = .next u ∧ u.result = .decoded v length

/-- R175: what the block writes is no request: a header with the reply marker decodes as invalid, and a tag the block wrote is
never taken for the header of a write frame. -/
def Obligations.ReplyHeaderIsNoRequest : Prop :=
  (∀ (h : Header) (s : State), h.bytes.take 4 = s.cfg.replyMarker.bytes →
    ∃ t length, exec (.hdrDec h) s = .next t ∧ t.result = .decoded false length) ∧
  (∀ (c : Config) (tag : Tag) (blk : Block) (n : Count),
    locateHeader c (tag.putHeader c n) blk =
      if (hdrDecode c blk.header).1 then some (.inBlk, (hdrDecode c blk.header).2) else none)

/-- R173: the reserved bytes take no part in `isValid` or `length`, and the length is not range-checked. -/
def Obligations.ReservedHeaderBytesIgnored : Prop :=
  (∀ (h h' : Header) (s : State), (∀ i, i < 4 ∨ i = 6 ∨ i = 7 → h.bytes[i]? = h'.bytes[i]?) →
    exec (.hdrDec h) s = exec (.hdrDec h') s) ∧
  (∀ (s : State) (h : Header) (length : Count) (r4 r5 r8 r9 r10 r11 : Byte),
    h.bytes = s.cfg.reqMarker.bytes ++ [r4, r5] ++ be16 length ++ [r8, r9, r10, r11] →
    ∃ t, exec (.hdrDec h) s = .next t ∧ t.result = .decoded true length)

/-! ### The layouts -/

/-- R96, R147: the block matches the magic pattern exactly when `blk[4*i + j] = REQ_MARKER[j]` for the 128 places; a mismatch raises
`PATTERN_MISMATCH` (bit 2) and nothing else. That the layout is an operation of its own is the model's choice (log entry 8). -/
def Obligations.MagicBlockMatch : Prop :=
  ∀ (blk : Block) (s : State), ∃ t b, exec (.blkMagic blk) s = .next t ∧ t.result = .matched b ∧
    (b = true ↔ ∀ i j, i < 128 → j < 4 → blk.bytes[4 * i + j]? = s.cfg.reqMarker.bytes[j]?) ∧
    (t.diag = if b then 0#6 else 4#6) ∧ OnlyOutputs s t

/-- R97 (D22 for the bytes it leaves): the confirming reply in the buffers. The layout as an operation is log entry 8. -/
def Obligations.ConfirmReplyLayout : Prop :=
  ∀ (tag : Tag) (blk : Block) (s : State), ∃ t tag' blk', exec (.blkConfirm tag blk) s = .next t ∧
    t.result = .buffers tag' blk' ∧
    tag'.bytes = (hdrEncode s.cfg 8).bytes ++ tag.bytes.drop 12 ∧
    (∀ i, i < 4 → blk'.bytes[i]? = s.cfg.replyMarker.bytes[i]?) ∧
    blk'.bytes[4]? = some (s.magicSector.extractLsb' 24 8) ∧ blk'.bytes[5]? = some (s.magicSector.extractLsb' 16 8) ∧
    blk'.bytes[6]? = some (s.magicSector.extractLsb' 8 8) ∧ blk'.bytes[7]? = some (s.magicSector.extractLsb' 0 8) ∧
    (∀ i, 8 ≤ i → blk'.bytes[i]? = blk.bytes[i]?) ∧
    t.diag = 0 ∧ OnlyOutputs s t

/-- R98: the presence announcement: a zero-length reply header in the tag; the rest of the tag and the block as they came. The
layout as an operation is log entry 8. -/
def Obligations.AnnouncementLayout : Prop :=
  ∀ (tag : Tag) (blk : Block) (s : State), ∃ t tag', exec (.tagAnnounce tag blk) s = .next t ∧
    t.result = .buffers tag' blk ∧
    (∀ i, i < 12 → tag'.bytes[i]? = (hdrEncode s.cfg 0).bytes[i]?) ∧
    (∀ i, 12 ≤ i → tag'.bytes[i]? = tag.bytes[i]?) ∧
    t.diag = 0 ∧ OnlyOutputs s t

/-- R99 (D19, D22): a read frame of at most 500 payload bytes: header at 0, payload at 12, the rest of the block and the whole tag
as they came. The layout as an operation is log entry 8. -/
def Obligations.ReadFrameLayout : Prop :=
  ∀ (avail : Count) (bytes : ByteSeq) (tag : Tag) (blk : Block) (s : State), bytes.bytes.length ≤ 500 →
    ∃ t blk', exec (.frameRd avail bytes tag blk) s = .next t ∧ t.result = .buffers tag blk' ∧
      (∀ i, i < 12 → blk'.bytes[i]? = (hdrEncode s.cfg avail).bytes[i]?) ∧
      (∀ i, i < bytes.bytes.length → blk'.bytes[12 + i]? = bytes.bytes[i]?) ∧
      (∀ i, 12 + bytes.bytes.length ≤ i → blk'.bytes[i]? = blk.bytes[i]?) ∧
      t.diag = 0 ∧ OnlyOutputs s t

/-- R100, R102, R103 (D20): a tag that holds a request header frames `blk[0 .. len-1]`, `len = min(length, 512)`, whatever the block holds;
a tag that holds none frames nothing in this placement. That the layout is an operation of its own, and that as such it raises nothing
even where the length is above 512 (R103's `LENGTH_CLAMPED` is raised by the write path's clamp, R188), is the model's choice (log
entry 8). -/
def Obligations.WriteFrameInTagPayload : Prop :=
  ∀ (tag : Tag) (blk : Block) (s : State), ∃ t p, exec (.frameWrTag tag blk) s = .next t ∧ t.result = .frame p ∧
    ((hdrDecode s.cfg tag.header).1 = true → ∃ bs : ByteSeq, p = some bs ∧
      bs.bytes = blk.bytes.take (min (hdrDecode s.cfg tag.header).2.toNat 512)) ∧
    ((hdrDecode s.cfg tag.header).1 = false → p = none) ∧
    t.diag = 0 ∧ OnlyOutputs s t

/-- R101, R102, R103 (D20): a block that holds a request header, behind a tag that holds none, frames `blk[12 .. 12+len-1]`,
`len = min(length, 500)`. That the layout is an operation of its own, and that as such it raises nothing even where the length is above
500 (R103's `LENGTH_CLAMPED` is raised by the write path's clamp, R188), is the model's choice (log entry 8). -/
def Obligations.WriteFrameInBlockPayload : Prop :=
  ∀ (tag : Tag) (blk : Block) (s : State), ∃ t p, exec (.frameWrBlk tag blk) s = .next t ∧ t.result = .frame p ∧
    ((hdrDecode s.cfg tag.header).1 = false → (hdrDecode s.cfg blk.header).1 = true → ∃ bs : ByteSeq, p = some bs ∧
      bs.bytes = (blk.bytes.drop 12).take (min (hdrDecode s.cfg blk.header).2.toNat 500)) ∧
    ((hdrDecode s.cfg tag.header).1 = true ∨ (hdrDecode s.cfg blk.header).1 = false → p = none) ∧
    t.diag = 0 ∧ OnlyOutputs s t

/-! ### The Byte Queue -/

/-- R200, R201: a batch that fits is appended whole; a batch that does not is dropped whole with `QUEUE_OVERFLOW` (bit 5). -/
def Obligations.PushAppendsOrDropsWhole : Prop :=
  ∀ (batch : ByteSeq) (s : State), ∃ t, exec (.qPush batch) s = .next t ∧ t.result = .none ∧
    (s.q.bytes.length + batch.bytes.length ≤ s.cfg.fifoCap.toNat → t.q.bytes = s.q.bytes ++ batch.bytes ∧ t.diag = 0#6) ∧
    (s.cfg.fifoCap.toNat < s.q.bytes.length + batch.bytes.length → t.q = s.q ∧ t.diag = 32#6) ∧
    SameSession s t ∧ t.knockIdx = s.knockIdx ∧ SameSetting s t ∧ t.xp = s.xp

/-- R203: `Pop` returns and removes the `min(|q|, maxLen)` oldest bytes and raises nothing. -/
def Obligations.PopTakesTheOldest : Prop :=
  ∀ (maxLen : Count) (s : State), ∃ t bs, exec (.qPop maxLen) s = .next t ∧ t.result = .popped bs ∧
    bs.bytes.length = min s.q.bytes.length maxLen.toNat ∧
    (∀ i, i < bs.bytes.length → bs.bytes[i]? = s.q.bytes[i]?) ∧
    t.q.bytes.length = s.q.bytes.length - bs.bytes.length ∧
    (∀ i, t.q.bytes[i]? = s.q.bytes[bs.bytes.length + i]?) ∧
    t.diag = 0 ∧ SameSession s t ∧ t.knockIdx = s.knockIdx ∧ SameSetting s t ∧ t.xp = s.xp

/-- R206: `Available` returns `|q|`, at most `FIFO_CAP` where the queue is within its capacity, and has no side effect. -/
def Obligations.AvailableCountsTheQueue : Prop :=
  ∀ s : State, ∃ t n, exec .qAvail s = .next t ∧ t.result = .count n ∧ n.toNat = s.q.bytes.length ∧
    (s.q.bytes.length ≤ s.cfg.fifoCap.toNat → n.toNat ≤ s.cfg.fifoCap.toNat) ∧ t.diag = 0 ∧ OnlyOutputs s t

/-- R207: over any run of queue operations, from any state, the bytes that were queued and those that entered, in order, are
the bytes that left and those still queued, in order: nothing duplicated, reordered or altered, nothing lost but a batch that
did not fit. -/
def Obligations.QueueKeepsFifoOrder : Prop :=
  ∀ (ops : List Instr) (s : State), (∀ i ∈ ops, isQueueOp i = true) →
    ∃ ins outs u, queueTrace ops s = some (ins, outs, u) ∧ s.q.bytes ++ ins = outs ++ u.q.bytes

/-! ### The transport -/

/-- R217 (D23), R215: a loopback read pops up to `maxLen` bytes and reports the length of the queue before the pop. -/
def Obligations.LoopbackReadDrains : Prop :=
  ∀ (maxLen : Count) (s : State), s.cfg.transport = .loopback →
    ∃ t avail bs, exec (.xpRd maxLen) s = .next t ∧ t.result = .transport avail bs ∧
      avail.toNat = s.q.bytes.length ∧ bs.bytes = s.q.bytes.take maxLen.toNat ∧ t.q.bytes = s.q.bytes.drop maxLen.toNat ∧
      t.diag = 0 ∧ SameSession s t ∧ t.knockIdx = s.knockIdx ∧ SameSetting s t ∧ t.xp = s.xp

/-- R221 (D25), R215: an external read gives at most `maxLen` bytes and some `avail`, and does not touch the queue. -/
def Obligations.ExternalReadLeavesTheQueue : Prop :=
  ∀ (maxLen : Count) (s : State), s.cfg.transport = .external →
    ∃ t avail bs, exec (.xpRd maxLen) s = .next t ∧ t.result = .transport avail bs ∧ bs.bytes.length ≤ maxLen.toNat ∧
      t.diag = 0 ∧ SameBlock s t ∧ SameSetting s t ∧ t.xp = .read maxLen :: s.xp

/-- R216, R218 (D24), R219, R221 (D25): a transport write pushes the bytes, whole or not at all, or hands them to the
environment; it has no result. -/
def Obligations.TransportWriteForwards : Prop :=
  ∀ (bytes : ByteSeq) (s : State), ∃ t, exec (.xpWr bytes) s = .next t ∧ t.result = .none ∧ Forwarded s t bytes.bytes false

/-! ### The Channel Handler -/

/-- R184, with R180 and R181 (D19, log entry 16) for the tag, the diagnostics and the frame: a channel read is handled, whatever
the buffers held and however many bytes were available, in both transports; it returns the tag as it came, raises nothing and writes
nothing of the session. -/
def Obligations.ChannelReadAlwaysHandled : Prop :=
  ∀ (tag : Tag) (blk : Block) (s : State), ∃ t blk', exec (.chRd tag blk) s = .next t ∧ t.result = .reply ⟨true, tag, blk'⟩ ∧
    t.diag = 0 ∧ SameSession s t ∧ t.knockIdx = s.knockIdx ∧ SameSetting s t

/-- R181, R182, R183, R217 (D19, D22, D23): the frame of a loopback read: the length field is `|q|` before the pop, the payload is the
`min(|q|, 500)` oldest bytes, and the rest of the block is as it came. -/
def Obligations.ChannelReadFramesTheQueue : Prop :=
  ∀ (tag : Tag) (blk : Block) (s : State), s.cfg.transport = .loopback →
    ∃ t blk' avail, exec (.chRd tag blk) s = .next t ∧ t.result = .reply ⟨true, tag, blk'⟩ ∧
      avail.toNat = s.q.bytes.length ∧
      (∀ i, i < 12 → blk'.bytes[i]? = (hdrEncode s.cfg avail).bytes[i]?) ∧
      (∀ i, i < min s.q.bytes.length 500 → blk'.bytes[12 + i]? = s.q.bytes[i]?) ∧
      (∀ i, 12 + min s.q.bytes.length 500 ≤ i → blk'.bytes[i]? = blk.bytes[i]?) ∧
      t.q.bytes = s.q.bytes.drop 500 ∧ t.xp = s.xp ∧ t.diag = 0 ∧ SameSession s t ∧ t.knockIdx = s.knockIdx ∧ SameSetting s t

/-- R181, R221 (D19, D22, D25): the frame of a read from an external transport: what `TransportRead(500)` answers in this state (the
row `XP.RD`), at most 500 bytes from offset 12 behind a header with its `avail`; the rest of the block as it came; the queue untouched.
The answer itself is a free value (log entry 9). -/
def Obligations.ChannelReadFramesExternalBytes : Prop :=
  ∀ (tag : Tag) (blk : Block) (s : State), s.cfg.transport = .external →
    ∃ (t u : State) (blk' : Block) (avail : Count) (bs : ByteSeq),
      exec (.xpRd 500) s = .next u ∧ u.result = .transport avail bs ∧
      avail = Config.externalAvail (.read 500 :: s.xp) ∧ bs = externalBytes (.read 500 :: s.xp) 500 ∧
      exec (.chRd tag blk) s = .next t ∧ t.result = .reply ⟨true, tag, blk'⟩ ∧ bs.bytes.length ≤ 500 ∧
      (∀ i, i < 12 → blk'.bytes[i]? = (hdrEncode s.cfg avail).bytes[i]?) ∧
      (∀ i, i < bs.bytes.length → blk'.bytes[12 + i]? = bs.bytes[i]?) ∧
      (∀ i, 12 + bs.bytes.length ≤ i → blk'.bytes[i]? = blk.bytes[i]?) ∧
      t.diag = 0 ∧ SameBlock s t ∧ SameSetting s t ∧ t.xp = .read 500 :: s.xp

/-- R186, R188 to R190 (D20, D21): with a request header in the tag the payload is `blk[0 .. len-1]`, `len = min(length, 512)`; it is forwarded, the
write is handled and the buffers are as they came. -/
def Obligations.WriteWithTagHeaderForwards : Prop :=
  ∀ (tag : Tag) (blk : Block) (s : State), (hdrDecode s.cfg tag.header).1 = true →
    ∃ t, exec (.chWrTag tag blk) s = .next t ∧ t.result = .reply ⟨true, tag, blk⟩ ∧
      Forwarded s t (blk.bytes.take (min (hdrDecode s.cfg tag.header).2.toNat 512))
        (decide (512 < (hdrDecode s.cfg tag.header).2.toNat))

/-- R186, R188 to R190 (D20, D21): with a request header in the block and none in the tag the payload is `blk[12 .. 12+len-1]`,
`len = min(length, 500)`. -/
def Obligations.WriteWithBlockHeaderForwards : Prop :=
  ∀ (tag : Tag) (blk : Block) (s : State), (hdrDecode s.cfg tag.header).1 = false → (hdrDecode s.cfg blk.header).1 = true →
    ∃ t, exec (.chWrBlk tag blk) s = .next t ∧ t.result = .reply ⟨true, tag, blk⟩ ∧
      Forwarded s t ((blk.bytes.drop 12).take (min (hdrDecode s.cfg blk.header).2.toNat 500))
        (decide (500 < (hdrDecode s.cfg blk.header).2.toNat))

/-- R187: with no request header in either buffer the write is refused with `MALFORMED_FRAME` (bit 3): not handled, nothing
forwarded, no buffer byte and no state changed. What the caller does then is another statement's. -/
def Obligations.WriteWithoutHeaderRejected : Prop :=
  ∀ (tag : Tag) (blk : Block) (s : State), (hdrDecode s.cfg tag.header).1 = false → (hdrDecode s.cfg blk.header).1 = false →
    ∃ t, exec (.chWrReject tag blk) s = .next t ∧ t.result = .reply ⟨false, tag, blk⟩ ∧ t.diag = 8#6 ∧ OnlyOutputs s t

/-- R102, R186, R187: for any two buffers the write path is the row `channelRow` names, which answers a next state, and the other two
rows refuse: the tag's header wins, and the three paths never overlap (log entry 7). -/
def Obligations.WritePathsNeverOverlap : Prop :=
  ∀ (tag : Tag) (blk : Block) (s : State),
    (∃ t, exec (channelRow s.cfg .write tag blk) s = .next t) ∧
    ∀ i, i = .chWrTag tag blk ∨ i = .chWrBlk tag blk ∨ i = .chWrReject tag blk → i ≠ channelRow s.cfg .write tag blk →
      exec i s = .refused .whenFalse

/-- R188: the clamp: `LENGTH_CLAMPED` (bit 4) and the capacity exactly when the length exceeds it, 512 in tag placement and 500 in
block placement; else the length itself. -/
def Obligations.ClampCutsToCapacity : Prop :=
  ∀ (length : Count) (p : Placement) (s : State), ∃ t n, exec (.chClamp length p) s = .next t ∧ t.result = .count n ∧
    (p = .inTag → n.toNat = min length.toNat 512 ∧ (t.diag = if 512 < length.toNat then 16#6 else 0#6)) ∧
    (p = .inBlk → n.toNat = min length.toNat 500 ∧ (t.diag = if 500 < length.toNat then 16#6 else 0#6)) ∧
    OnlyOutputs s t

/-- R189, R190 (D20, D21): forwarding hands `blk[off .. off+len-1]` to the transport, `off` 0 or 12 by the placement; handled, the buffers as
they came. -/
def Obligations.ForwardSendsTheSlice : Prop :=
  ∀ (len : Count) (tag : Tag) (blk : Block) (s : State),
    (len.toNat ≤ 512 → ∃ t, exec (.chFwd .inTag len tag blk) s = .next t ∧ t.result = .reply ⟨true, tag, blk⟩ ∧
      Forwarded s t (blk.bytes.take len.toNat) false) ∧
    (len.toNat ≤ 500 → ∃ t, exec (.chFwd .inBlk len tag blk) s = .next t ∧ t.result = .reply ⟨true, tag, blk⟩ ∧
      Forwarded s t ((blk.bytes.drop 12).take len.toNat) false)

/-- Operands that the spec rules out (R24 (g), R182, R188) are refused by name: a forward past the block, a read frame of more than 500
payload bytes. No rule gives the refusal: it is the model's own, DEDUCED (log entry 22). -/
def Obligations.OutOfRangeOperandsRefused : Prop :=
  (∀ (len : Count) (tag : Tag) (blk : Block) (s : State),
    (512 < len.toNat → exec (.chFwd .inTag len tag blk) s = .refused .payloadOutsideBlock) ∧
    (500 < len.toNat → exec (.chFwd .inBlk len tag blk) s = .refused .payloadOutsideBlock)) ∧
  (∀ (avail : Count) (bytes : ByteSeq) (tag : Tag) (blk : Block) (s : State), 500 < bytes.bytes.length →
    exec (.frameRd avail bytes tag blk) s = .refused .payloadTooLong)

/-! ### The access classes -/

/-- R131, with R132 (D12) for the result of a refused write and R133 (D11, D13) for what is kept: an access at the sentinel address
goes to the Channel Handler from any drive in any phase, is handled whatever that returns, and forces `phase` to Idle unless it is
Active; `knock_idx`, `claimed_drive` and `magic_sector` stay. -/
def Obligations.SentinelReachesTheChannel : Prop :=
  ∀ (a : Access) (s : State), a.addr = s.cfg.sentinel →
    ∃ t tag' blk' h, (a.dir = .read → exec (.sentRd a) s = .next t) ∧ (a.dir = .write → exec (.sentWr a) s = .next t) ∧
      exec (.isChannelIO a) s = .next t ∧
      t.result = .reply ⟨true, tag', blk'⟩ ∧ DelegatedToChannel s t a ⟨true, tag', blk'⟩ h ∧
      t.phase = (if s.phase = .active then .active else .idle) ∧
      t.claimedDrive = s.claimedDrive ∧ t.magicSector = s.magicSector ∧ t.knockIdx = s.knockIdx ∧ SameSetting s t

/-- R136: the expected knock address advances the counter by one and does nothing else. -/
def Obligations.KnockHitAdvances : Prop :=
  ∀ (a : Access) (s : State), a.addr ≠ s.cfg.sentinel → a.addr = s.cfg.knock[s.knockIdx] → s.knockIdx.val ≤ 3 →
    ∃ t, exec (.knHit a) s = .next t ∧ t.knockIdx.val = s.knockIdx.val + 1 ∧ t.result = .buffers a.tag a.blk ∧ t.diag = 0 ∧
      SameSession s t ∧ t.q = s.q ∧ SameSetting s t ∧ t.xp = s.xp

/-- R137 (D14): any other address puts the counter back to 0, address `KNOCK[0]` included, and does nothing else. -/
def Obligations.KnockMissResets : Prop :=
  ∀ (a : Access) (s : State), a.addr ≠ s.cfg.sentinel → a.addr ≠ s.cfg.knock[s.knockIdx] →
    ∃ t, exec (.knMiss a) s = .next t ∧ t.knockIdx = 0 ∧ t.result = .buffers a.tag a.blk ∧ t.diag = 0 ∧
      SameSession s t ∧ t.q = s.q ∧ SameSetting s t ∧ t.xp = s.xp

/-- R140: the completed knock claims the calling drive, zeroes the magic sector, moves to ClaimedDrive from any phase, and writes
the announcement into `tag[0..11]`. -/
def Obligations.KnockDoneClaimsTheDrive : Prop :=
  ∀ (a : Access) (s : State), a.addr ≠ s.cfg.sentinel → s.knockIdx = 4 → a.addr = s.cfg.knock[4] →
    ∃ t tag', exec (.knDone a) s = .next t ∧ t.knockIdx = 0 ∧ t.phase = .claimedDrive ∧ t.claimedDrive = a.drive ∧
      t.magicSector = 0 ∧ t.result = .buffers tag' a.blk ∧
      (∀ i, i < 12 → tag'.bytes[i]? = (hdrEncode s.cfg 0).bytes[i]?) ∧ (∀ i, 12 ≤ i → tag'.bytes[i]? = a.tag.bytes[i]?) ∧
      t.diag = 0 ∧ t.q = s.q ∧ SameSetting s t ∧ t.xp = s.xp

/-- R144, with R136 and R137 (D14, log entry 13) for the counter: in Idle the row changes nothing and is not handled, and an access at
the entry point that completes no knock is not handled and returns its buffers as they came; only `knock_idx` moves: by one where
the address is the one expected, to 0 where it is another. -/
def Obligations.IdlePassesThrough : Prop :=
  (∀ (a : Access) (s : State), a.addr ≠ s.cfg.sentinel → s.phase = .idle →
    ∃ t, exec (.phIdle a) s = .next t ∧ t.result = .reply ⟨false, a.tag, a.blk⟩ ∧ t.diag = 0 ∧ OnlyOutputs s t) ∧
  (∀ (a : Access) (s : State), a.addr ≠ s.cfg.sentinel → s.phase = .idle → AccessClass.knDone.holds s a = false →
    ∃ t, exec (.isChannelIO a) s = .next t ∧ t.result = .reply ⟨false, a.tag, a.blk⟩ ∧ t.diag = 0 ∧ SameSession s t ∧
      t.q = s.q ∧ SameSetting s t ∧ t.xp = s.xp ∧
      (a.addr = s.cfg.knock[s.knockIdx] → t.knockIdx.val = s.knockIdx.val + 1) ∧
      (a.addr ≠ s.cfg.knock[s.knockIdx] → t.knockIdx = 0))

/-- R146 (D16), R147 (D32): any write on the claimed drive in ClaimedDrive is accepted: its address becomes the magic sector, the phase
SectorPending, it is handled, the buffers are as they came; `PATTERN_MISMATCH` (bit 2) exactly when the block is not the magic
pattern. -/
def Obligations.ClaimAcceptsAnyWrite : Prop :=
  ∀ (a : Access) (s : State), a.addr ≠ s.cfg.sentinel → s.phase = .claimedDrive → a.dir = .write → a.drive = s.claimedDrive →
    ∃ t, exec (.phClaimAccept a) s = .next t ∧ t.result = .reply ⟨true, a.tag, a.blk⟩ ∧
      t.phase = .sectorPending ∧ t.magicSector = a.addr ∧ t.claimedDrive = s.claimedDrive ∧ t.knockIdx = s.knockIdx ∧
      ((∀ i j, i < 128 → j < 4 → a.blk.bytes[4 * i + j]? = s.cfg.reqMarker.bytes[j]?) → t.diag = 0#6) ∧
      ((∃ i j, i < 128 ∧ j < 4 ∧ a.blk.bytes[4 * i + j]? ≠ s.cfg.reqMarker.bytes[j]?) → t.diag = 4#6) ∧
      t.q = s.q ∧ SameSetting s t ∧ t.xp = s.xp

/-- R148 (D28) and R157 (D18): a read or another drive in ClaimedDrive, and another sector in Active, pass through: not handled, no
diagnostic, nothing changed. -/
def Obligations.IneligibleAccessesPassSilently : Prop :=
  (∀ (a : Access) (s : State), a.addr ≠ s.cfg.sentinel → s.phase = .claimedDrive → a.dir = .read ∨ a.drive ≠ s.claimedDrive →
    ∃ t, exec (.phClaimPass a) s = .next t ∧ t.result = .reply ⟨false, a.tag, a.blk⟩ ∧ t.diag = 0 ∧ OnlyOutputs s t) ∧
  (∀ (a : Access) (s : State), a.addr ≠ s.cfg.sentinel → s.phase = .active → a.addr ≠ s.magicSector →
    ∃ t, exec (.phActPass a) s = .next t ∧ t.result = .reply ⟨false, a.tag, a.blk⟩ ∧ t.diag = 0 ∧ OnlyOutputs s t)

/-- R150, R152 (D17, D22): the confirming read: the reply of length 8 in the tag, the reply marker and the magic sector big-endian in
the block, Active, handled; every other buffer byte as it came; the queue untouched. -/
def Obligations.ConfirmingReadActivates : Prop :=
  ∀ (a : Access) (s : State), a.addr ≠ s.cfg.sentinel → s.phase = .sectorPending → a.dir = .read → a.drive = s.claimedDrive →
    a.addr = s.magicSector →
    ∃ t tag' blk', exec (.phPendConfirm a) s = .next t ∧ t.result = .reply ⟨true, tag', blk'⟩ ∧ t.phase = .active ∧
      tag'.bytes = (hdrEncode s.cfg 8).bytes ++ a.tag.bytes.drop 12 ∧
      blk'.bytes = s.cfg.replyMarker.bytes ++ be32 s.magicSector ++ a.blk.bytes.drop 8 ∧
      t.claimedDrive = s.claimedDrive ∧ t.magicSector = s.magicSector ∧ t.knockIdx = s.knockIdx ∧
      t.diag = 0 ∧ t.q = s.q ∧ SameSetting s t ∧ t.xp = s.xp

/-- R153: any other access in SectorPending raises `PROTO_MISMATCH` (bit 0), is not handled and changes nothing. -/
def Obligations.PendingMismatchReported : Prop :=
  ∀ (a : Access) (s : State), a.addr ≠ s.cfg.sentinel → s.phase = .sectorPending →
    a.dir = .write ∨ a.drive ≠ s.claimedDrive ∨ a.addr ≠ s.magicSector →
    ∃ t, exec (.phPendMiss a) s = .next t ∧ t.result = .reply ⟨false, a.tag, a.blk⟩ ∧ t.diag = 1#6 ∧ OnlyOutputs s t

/-- R154: in Active an access to the magic sector on the claimed drive, of either direction, is delegated to the Channel Handler and
returns its `handled`; the session record is not written. -/
def Obligations.ActiveDelegatesToTheChannel : Prop :=
  ∀ (a : Access) (s : State), a.addr ≠ s.cfg.sentinel → s.phase = .active → a.addr = s.magicSector → a.drive = s.claimedDrive →
    ∃ t r, (a.dir = .read → exec (.phActRd a) s = .next t) ∧ (a.dir = .write → exec (.phActWr a) s = .next t) ∧
      t.result = .reply r ∧ DelegatedToChannel s t a r r.handled ∧
      (r.handled = false ↔ a.dir = .write ∧ (hdrDecode s.cfg a.tag.header).1 = false ∧ (hdrDecode s.cfg a.blk.header).1 = false) ∧
      SameSession s t ∧ t.knockIdx = s.knockIdx ∧ SameSetting s t

/-- R156: the magic sector on another drive in Active raises `DRIVE_CONFLICT` (bit 1), is not handled and changes nothing. -/
def Obligations.ActiveConflictReported : Prop :=
  ∀ (a : Access) (s : State), a.addr ≠ s.cfg.sentinel → s.phase = .active → a.addr = s.magicSector → a.drive ≠ s.claimedDrive →
    ∃ t, exec (.phActConflict a) s = .next t ∧ t.result = .reply ⟨false, a.tag, a.blk⟩ ∧ t.diag = 2#6 ∧ OnlyOutputs s t

/-- R110 to R116: a row of the access classes runs only on an access of its class. That it refuses by name elsewhere is the
model's choice (log entry 7). -/
def Obligations.RowsRefuseOtherClasses : Prop :=
  ∀ (k : AccessClass) (a : Access) (s : State), k.holds s a = false → exec (k.instr a) s = .refused .whenFalse

/-- R110: the classes are exhaustive and mutually exclusive: a sentinel access is in exactly one class of stage A and in no
other; any other access is in none of stage A, in exactly one of stage B and, in whatever state stage B leaves, in exactly one of
stage C. -/
def Obligations.ClassesPartitionAccesses : Prop :=
  ∀ (a : Access) (s : State),
    (a.addr = s.cfg.sentinel → (∃! k : AccessClass, k.stage = .sentinel ∧ k.holds s a = true) ∧
      ∀ k : AccessClass, k.stage ≠ .sentinel → k.holds s a = false) ∧
    (a.addr ≠ s.cfg.sentinel → (∀ k : AccessClass, k.stage = .sentinel → k.holds s a = false) ∧
      (∃! k : AccessClass, k.stage = .knock ∧ k.holds s a = true) ∧
      (∃! k : AccessClass, k.stage = .dispatch ∧ k.holds s a = true))

/-- R110, R130, R142 (D10): an access at the entry point is its classes in order: the row of stage A alone at the sentinel, else the row of
stage B and then the row of stage C in the state, and with the tag, that stage B left. -/
def Obligations.AccessRunsItsClasses : Prop :=
  ∀ (a : Access) (s : State),
    (∃ k : AccessClass, k.stage = .sentinel ∧ k.holds s a = true ∧ exec (.isChannelIO a) s = exec (k.instr a) s) ∨
    (∃ (kb kc : AccessClass) (u : State), kb.stage = .knock ∧ kb.holds s a = true ∧ exec (kb.instr a) s = .next u ∧
      kc.stage = .dispatch ∧ kc.holds u (seenAfter a u) = true ∧
      exec (.isChannelIO a) s = exec (kc.instr (seenAfter a u)) u)

/-- R21, R43, R45: an access at the entry point answers a next state and a reply, whatever the state and the operands; the
configuration and the environment's coming operations are as they were. -/
def Obligations.AccessAlwaysReplies : Prop :=
  ∀ (a : Access) (s : State), ∃ t r, exec (.isChannelIO a) s = .next t ∧ t.result = .reply r ∧ SameSetting s t

/-- R163 (c): an access that is not handled returns both buffers as they came, unless it completed a knock, and then exactly
`tag[0..11]` was written, with the announcement. -/
def Obligations.UnhandledAccessKeepsBuffers : Prop :=
  ∀ (a : Access) (s t : State) (r : Reply), exec (.isChannelIO a) s = .next t → t.result = .reply r → r.handled = false →
    r.blk = a.blk ∧
    (AccessClass.knDone.holds s a = false → r.tag = a.tag) ∧
    (AccessClass.knDone.holds s a = true → r.tag.bytes = (hdrEncode s.cfg 0).bytes ++ a.tag.bytes.drop 12)

/-- R163 (e): an access changes the queue only at the sentinel, or at the magic sector on the claimed drive in Active when it does not
complete a knock. -/
def Obligations.QueueMovesOnlyThroughTheChannel : Prop :=
  ∀ (a : Access) (s t : State), exec (.isChannelIO a) s = .next t → t.q ≠ s.q →
    s.cfg.transport = .loopback ∧
    (a.addr = s.cfg.sentinel ∨
      (s.phase = .active ∧ a.addr = s.magicSector ∧ a.drive = s.claimedDrive ∧ AccessClass.knDone.holds s a = false))

/-- R251, R156, R157, R148, R153: an access from another drive than the claimed one, at another address than the sentinel, that completes no
knock is not handled, returns its buffers as they came and changes nothing of the block but `knock_idx`. -/
def Obligations.OtherDrivesCannotTouchTheChannel : Prop :=
  ∀ (a : Access) (s : State), a.addr ≠ s.cfg.sentinel → a.drive ≠ s.claimedDrive → AccessClass.knDone.holds s a = false →
    ∃ t, exec (.isChannelIO a) s = .next t ∧ t.result = .reply ⟨false, a.tag, a.blk⟩ ∧ SameSession s t ∧ t.q = s.q ∧
      SameSetting s t ∧ t.xp = s.xp

/-- R44, R46, R117: an access that is not handled tells its caller nothing of the queue: with any other queue in its place it
returns the same result and the same diagnostics and leaves the same session. -/
def Obligations.UnhandledAccessHidesTheQueue : Prop :=
  ∀ (a : Access) (s t : State) (r : Reply) (q' : ByteSeq),
    exec (.isChannelIO a) s = .next t → t.result = .reply r → r.handled = false →
    ∃ t', exec (.isChannelIO a) (s.setQueue q') = .next t' ∧ t'.result = t.result ∧ t'.diag = t.diag ∧ SameSession t t' ∧
      t'.knockIdx = t.knockIdx ∧ t'.q = q'

/-- 95_test_vectors.md section 5, R136, R140, R141 (D15), R142 (D10): from any state with `knock_idx = 0`, in any phase, five accesses at the knock
addresses in order, from any drives, the last a read, end in ClaimedDrive with the last one's drive claimed, the magic sector 0 and
the announcement in the last one's tag, not handled. -/
def Obligations.FiveKnocksClaimTheDrive : Prop :=
  ∀ (s : State) (a0 a1 a2 a3 a4 : Access), s.knockIdx = 0 →
    a0.addr = s.cfg.knock[0] → a1.addr = s.cfg.knock[1] → a2.addr = s.cfg.knock[2] → a3.addr = s.cfg.knock[3] →
    a4.addr = s.cfg.knock[4] → a4.dir = .read →
    ∃ t tag', runAll [.isChannelIO a0, .isChannelIO a1, .isChannelIO a2, .isChannelIO a3, .isChannelIO a4] s = .next t ∧
      t.phase = .claimedDrive ∧ t.claimedDrive = a4.drive ∧ t.magicSector = 0 ∧ t.knockIdx = 0 ∧
      t.result = .reply ⟨false, tag', a4.blk⟩ ∧ tag'.bytes = (hdrEncode s.cfg 0).bytes ++ a4.tag.bytes.drop 12 ∧
      t.diag = 0 ∧ SameSetting s t

/-- R220, R217 (D23), R218 (D24), for traffic through the sentinel alone, from an empty queue, in LOOPBACK mode: write frames whose
payloads together fit in the queue, then any number of reads: the payloads read, concatenated, are the payloads written,
concatenated, as far as 500 bytes a read reach. -/
def Obligations.LoopbackReturnsWhatWasWritten : Prop :=
  ∀ (ws rs : List Access) (s : State), s.cfg.transport = .loopback → s.q.bytes = [] →
    (∀ a ∈ ws, a.addr = s.cfg.sentinel ∧ a.dir = .write ∧ (writtenPayload s.cfg a).isSome = true) →
    (∀ a ∈ rs, a.addr = s.cfg.sentinel ∧ a.dir = .read) →
    (ws.filterMap (writtenPayload s.cfg)).flatten.length ≤ s.cfg.fifoCap.toNat →
    ∃ t bs u, runAll (ws.map .isChannelIO) s = .next t ∧ readTrace rs t = some (bs, u) ∧
      bs = (ws.filterMap (writtenPayload s.cfg)).flatten.take (500 * rs.length)

/-! ### Reset and the whole machine -/

/-- R260, R47 (D29 for the values but the phase's): `RESET` leaves Idle, nothing counted, the queue empty, the claim and the magic sector 0, no
result and no diagnostic, from any state; what it leaves of the configuration and the environment's side is log entry 19. -/
def Obligations.ResetRestoresTheInitialState : Prop :=
  ∀ s : State, ∃ t, exec .reset s = .next t ∧ t.phase = .idle ∧ t.knockIdx = 0 ∧ t.q.bytes = [] ∧ t.claimedDrive = 0 ∧
    t.magicSector = 0 ∧ t.result = .none ∧ t.diag = 0 ∧ SameSetting s t ∧ t.xp = s.xp

/-- R30, R31, R33, R39, R47 (D29): the state after reset meets the invariant, whatever the configuration. -/
def Obligations.ResetMeetsInvariant : Prop := ∀ c : Config, Inv (State.resetWith c)

/-- R33, R39, R14, R163 (f): every step keeps the invariant: the queue within its capacity, the magic sector 0 in ClaimedDrive and never
the sentinel in SectorPending and Active, the claimed drive a drive id. -/
def Obligations.StepKeepsInvariant : Prop := ∀ s t : State, Inv s → step s = .next t → Inv t

/-- R160 (D10 for T1 with T2 in one access): a step that changes the phase is one of T1 to T5, and nothing else changes it. -/
def Obligations.PhaseChangesOnlyByTransitions : Prop :=
  ∀ s t : State, step s = .next t → t.phase ≠ s.phase →
    ∃ r rest i, s.pending = r :: rest ∧ decode s.cfg r = .ok i ∧
      ((i = .reset ∧ t.phase = .idle) ∨
       ∃ a, i = .isChannelIO a ∧
        ((AccessClass.knDone.holds s a = true ∧ (t.phase = .claimedDrive ∨ (a.dir = .write ∧ t.phase = .sectorPending))) ∨
         (AccessClass.phClaimAccept.holds s a = true ∧ t.phase = .sectorPending) ∨
         (AccessClass.phPendConfirm.holds s a = true ∧ t.phase = .active) ∨
         (a.addr = s.cfg.sentinel ∧ (s.phase = .claimedDrive ∨ s.phase = .sectorPending) ∧ t.phase = .idle)))

/-- R32, R33, R163 (g): `claimed_drive` is written only by a completed knock, with the drive of that access, and by reset;
`magic_sector` only by those and by the accepted write, with its address. -/
def Obligations.ClaimAndMagicHaveFewWriters : Prop :=
  ∀ s t : State, step s = .next t → (t.claimedDrive ≠ s.claimedDrive ∨ t.magicSector ≠ s.magicSector) →
    ∃ r rest i, s.pending = r :: rest ∧ decode s.cfg r = .ok i ∧
      ((i = .reset ∧ t.claimedDrive = 0 ∧ t.magicSector = 0) ∨
       ∃ a, i = .isChannelIO a ∧
        ((AccessClass.knDone.holds s a = true ∧ t.claimedDrive = a.drive ∧
            (t.magicSector = 0 ∨ (a.dir = .write ∧ t.magicSector = a.addr))) ∨
         (AccessClass.phClaimAccept.holds s a = true ∧ t.claimedDrive = s.claimedDrive ∧ t.magicSector = a.addr)))

/-- R77, R265: no operation writes the configuration, and none touches the operations the environment has yet to present (log entry 2). -/
def Obligations.NoOperationWritesTheConfiguration : Prop :=
  ∀ (i : Instr) (s t : State), exec i s = .next t → SameSetting s t

/-- R20, R21, R22: a step runs the operation that the oldest request decodes to; it refuses a request the decoder refuses, under the
decoder's name; with nothing presented it changes nothing (log entry 2). -/
def Obligations.StepRunsTheDecodedOperation : Prop :=
  ∀ (s : State),
    (∀ r rest i, s.pending = r :: rest → decode s.cfg r = .ok i → step s = exec i (s.setPending rest)) ∧
    (∀ r rest e, s.pending = r :: rest → decode s.cfg r = .error e → step s = .refused (.badRequest e)) ∧
    (s.pending = [] → step s = .next s)

/-- R21, R230: every request of its port's shape is answered with a next state, in every state: no operation faults, traps, hangs or
blocks. -/
def Obligations.EveryDecodedRequestIsAnswered : Prop :=
  ∀ (s : State) (r : Request) (rest : List Request) (i : Instr), s.pending = r :: rest → decode s.cfg r = .ok i →
    ∃ t, step s = .next t ∧ t.pending = rest ∧ t.cfg = s.cfg

/-- R13, R14, R21, R91, R208, R270: what the decoder refuses is exactly what violates a port's shape. That the tag has exactly `TAG_LEN` bytes
and the drive id `DRIVE_W` bits is read from R90 (log entry 6). -/
def Obligations.DecoderRefusesBadShapesOnly : Prop :=
  (∀ (c : Config) (drive key : Nat) (tag blk : List Byte),
    (∃ i, decode c (.access drive key tag blk) = .ok i) ↔
      key < 2 ^ 33 ∧ drive < 2 ^ c.driveW ∧ tag.length = c.tagLen ∧ blk.length = 512) ∧
  (∀ (c : Config) (bytes : List Byte), (∃ i, decode c (.push bytes) = .ok i) ↔ bytes.length ≤ 65535) ∧
  (∀ (c : Config) (n : Nat), (∃ i, decode c (.pop n) = .ok i) ↔ n ≤ 65535) ∧
  (∀ c : Config, decode c .available = .ok .qAvail ∧ decode c .reset = .ok .reset)

/-- R90, R91, R222: decoding the encoding of any well-formed operation gives it back, every operand at every value; an access
class comes back as the access it classifies. -/
def Obligations.DecodeInvertsEncode : Prop :=
  ∀ (c : Config) (i : Instr) (r : Request), wellFormed c i = true → encode i = some r → decode c r = .ok i.entry

/-- R91 and opcode_table.json, under T0: three keys decode as the accesses they stand for: a read and a write at `0xFFFFFFFF`, a read at
the last knock address. -/
def Obligations.TableKeysDecode : Prop :=
  (∃ a, decodeTableWord 40 0x0FFFFFFFF = some (.isChannelIO a) ∧ a.addr = 0xFFFFFFFF ∧ a.dir = .read) ∧
  (∃ a, decodeTableWord 40 0x1FFFFFFFF = some (.isChannelIO a) ∧ a.addr = 0xFFFFFFFF ∧ a.dir = .write) ∧
  (∃ a, decodeTableWord 40 0x000000049 = some (.isChannelIO a) ∧ a.addr = 73 ∧ a.dir = .read)
end

