-- ==== Sys2Proof/Laws/Bytes.lean ====
section
/-! SUPPORT. Laws of byte arrays, big-endian fields, the Header Codec and the layouts. -/

namespace Sys2Proof

/-! ### Lengths -/

@[simp] theorem marker_length (m : Marker) : m.bytes.length = 4 := m.size
@[simp] theorem header_length (h : Header) : h.bytes.length = 12 := h.size
@[simp] theorem block_length (b : Block) : b.bytes.length = 512 := b.size

/-! ### Writes into an array -/

theorem splice_getElem? (l : List Byte) (off : Nat) (bs : List Byte) (i : Nat) :
    (splice l off bs)[i]? = if i < l.length ∧ off ≤ i ∧ i < off + bs.length then bs[i - off]? else l[i]? := by
  induction l generalizing off bs i with
  | nil => simp [splice]
  | cons x xs ih =>
    cases off with
    | zero =>
      cases bs with
      | nil => simp [splice]
      | cons b bs =>
        cases i with
        | zero => simp [splice]
        | succ i => simp [splice, ih]
    | succ off =>
      cases i with
      | zero => simp [splice]
      | succ i =>
        simp only [splice, List.getElem?_cons_succ, ih, List.length_cons]
        congr 1
        · simp only [eq_iff_iff]; omega
        · congr 1; omega

/-- A write reaches the bytes it names. -/
theorem splice_inside (l : List Byte) (off : Nat) (bs : List Byte) (i : Nat) (h : i < bs.length) (hl : off + bs.length ≤ l.length) :
    (splice l off bs)[off + i]? = bs[i]? := by
  rw [splice_getElem?, if_pos (by omega)]; congr 1; omega

/-- A write leaves every other byte alone. -/
theorem splice_outside (l : List Byte) (off : Nat) (bs : List Byte) (i : Nat) (h : i < off ∨ off + bs.length ≤ i) :
    (splice l off bs)[i]? = l[i]? := by
  rw [splice_getElem?, if_neg (by omega)]

/-- A write that fits, as a concatenation. -/
theorem splice_eq_append (l : List Byte) (off : Nat) (bs : List Byte) (hl : off + bs.length ≤ l.length) :
    splice l off bs = l.take off ++ bs ++ l.drop (off + bs.length) := by
  induction l generalizing off bs with
  | nil => simp at hl; simp [hl, splice]
  | cons x xs ih =>
    cases off with
    | zero =>
      cases bs with
      | nil => simp [splice]
      | cons b bs => simp at hl ⊢; simp [splice, ih 0 bs (by omega)]
    | succ off =>
      simp at hl
      simp only [splice, ih off bs (by omega), List.take_succ_cons, List.cons_append]
      rw [show off + 1 + bs.length = (off + bs.length) + 1 by omega, List.drop_succ_cons]

@[simp] theorem Buf.write_bytes {n : Nat} (b : Buf n) (off : Nat) (bs : List Byte) : (b.write off bs).bytes = splice b.bytes off bs := rfl
@[simp] theorem Tag.write_bytes (t : Tag) (off : Nat) (bs : List Byte) : (t.write off bs).bytes = splice t.bytes off bs := rfl
@[simp] theorem Tag.header_bytes (t : Tag) : t.header.bytes = t.bytes.take 12 := rfl
@[simp] theorem Buf.header_bytes (b : Block) : (Buf.header b).bytes = b.bytes.take 12 := rfl

/-- Two arrays with the same bytes are the same array. -/
theorem Buf.ext_bytes {n : Nat} {a b : Buf n} (h : a.bytes = b.bytes) : a = b := by
  cases a; cases b; simp_all

theorem Tag.ext_bytes {a b : Tag} (h : a.bytes = b.bytes) : a = b := by
  cases a; cases b; simp_all

theorem ByteSeq.ext_bytes {a b : ByteSeq} (h : a.bytes = b.bytes) : a = b := by
  cases a; cases b; simp_all

theorem Buf.getElem?_get {n : Nat} (b : Buf n) (i : Nat) (h : i < n) : b.bytes[i]? = some (b.get i h) := by
  simp [Buf.get, b.size, h]

theorem Buf.slice_length {n : Nat} (b : Buf n) (off len : Nat) (h : off + len ≤ n) : (b.slice off len).length = len := by
  simp [Buf.slice, b.size]; omega

/-! ### Big-endian fields -/

@[simp] theorem be16_length (v : Count) : (be16 v).length = 2 := rfl
@[simp] theorem be32_length (v : Addr) : (be32 v).length = 4 := rfl

/-- `UBE16(BE16(v)) = v` (R18, R174). -/
theorem ube16_split (v : Count) : ube16 (v.extractLsb' 8 8) (v.extractLsb' 0 8) = v := by
  have := v.isLt
  apply BitVec.eq_of_toNat_eq
  simp [ube16, BitVec.extractLsb'_toNat, Nat.shiftRight_eq_div_pow]
  omega

/-! ### The Header Codec -/

theorem hdrEncode_bytes (c : Config) (length : Count) :
    (hdrEncode c length).bytes = c.replyMarker.bytes ++ [0, 0] ++ be16 length ++ [0, 0, 0, 0] := rfl

/-- `HdrDecode` with R172's own numbers. -/
theorem hdrDecode_eq (c : Config) (h : Header) :
    hdrDecode c h = (h.bytes.take 4 == c.reqMarker.bytes, ube16 (h.get 6 (by decide)) (h.get 7 (by decide))) := rfl

/-- A read frame with R99's own numbers. -/
theorem readFrame_eq (c : Config) (b : Block) (avail : Count) (bs : List Byte) :
    readFrame c b avail bs = (b.write 12 bs).write 0 (hdrEncode c avail).bytes := rfl

/-- The confirming reply with R97's own numbers. -/
theorem confirmBlock_eq (c : Config) (b : Block) (magic : Addr) :
    confirmBlock c b magic = (b.write 0 c.replyMarker.bytes).write 4 (be32 magic) := rfl

/-- The magic pattern with R96's own number. -/
theorem magicPattern_eq (c : Config) : magicPattern c = (List.replicate 128 c.reqMarker.bytes).flatten := rfl

theorem hdrDecode_fst (c : Config) (h : Header) : (hdrDecode c h).1 = true ↔ h.bytes.take 4 = c.reqMarker.bytes := by
  simp [hdrDecode]

/-- The length of a header the block wrote comes back (R174). -/
theorem hdrDecode_hdrEncode_snd (c : Config) (length : Count) : (hdrDecode c (hdrEncode c length)).2 = length := by
  have h6 : (hdrEncode c length).get 6 (by decide) = length.extractLsb' 8 8 := by
    simp [Buf.get, hdrEncode_bytes, be16]
  have h7 : (hdrEncode c length).get 7 (by decide) = length.extractLsb' 0 8 := by
    simp [Buf.get, hdrEncode_bytes, be16]
  simp only [hdrDecode_eq, h6, h7, ube16_split]

theorem Config.markers_differ (c : Config) : c.replyMarker.bytes ≠ c.reqMarker.bytes := by
  have h := c.valid
  simp only [Params.ok, Bool.and_eq_true, bne_iff_ne] at h
  intro he
  exact h.1.1.1.1 (Buf.ext_bytes he.symm)

theorem Config.knock_ordinary (c : Config) (i : Nat) (h : i < knockLen) : c.knock[i] ≠ c.sentinel := by
  have hv := c.valid
  simp only [Params.ok, Bool.and_eq_true, List.all_eq_true, bne_iff_ne] at hv
  exact hv.1.1.1.2 _ (by simp)

theorem Config.cap_pos (c : Config) : 1 ≤ c.fifoCap.toNat := by
  have h := c.valid
  simp only [Params.ok, Bool.and_eq_true, decide_eq_true_eq] at h
  exact h.1.1.2

theorem Config.tag_room (c : Config) : 12 ≤ c.tagLen := by
  have h := c.valid
  simp only [Params.ok, Bool.and_eq_true, decide_eq_true_eq] at h
  exact h.1.2

/-- A header that begins with the reply marker is never valid as input (R175). -/
theorem hdrDecode_reply_invalid (c : Config) (h : Header) (hm : h.bytes.take 4 = c.replyMarker.bytes) :
    (hdrDecode c h).1 = false := by
  simp [hdrDecode, hm, c.markers_differ]

theorem hdrEncode_marker (c : Config) (length : Count) : (hdrEncode c length).bytes.take 4 = c.replyMarker.bytes := by
  rw [hdrEncode_bytes, List.append_assoc, List.append_assoc, List.take_left' c.replyMarker.size]

/-! ### Layouts -/

/-- The bytes of the magic pattern: `rep(REQ_MARKER, n)` at `4*i + j` is `REQ_MARKER[j]` (R96). -/
theorem rep_marker_getElem? (m : Marker) (n i j : Nat) (hi : i < n) (hj : j < 4) :
    ((List.replicate n m.bytes).flatten)[4 * i + j]? = m.bytes[j]? := by
  induction n generalizing i with
  | zero => omega
  | succ n ih =>
    rw [List.replicate_succ, List.flatten_cons, List.getElem?_append]
    cases i with
    | zero => simp [hj]
    | succ i =>
      rw [if_neg (by simp; omega), ← ih i (by omega)]; congr 1; simp; omega

/-- A block is the magic pattern exactly when its 512 bytes are the 128 copies of the marker (R96). -/
theorem isMagicBlock_iff (c : Config) (b : Block) :
    isMagicBlock c b = true ↔ ∀ i j, i < 128 → j < 4 → b.bytes[4 * i + j]? = c.reqMarker.bytes[j]? := by
  rw [isMagicBlock, beq_iff_eq]
  constructor
  · intro e i j hi hj; rw [e]; exact rep_marker_getElem? _ _ _ _ hi hj
  · intro e; apply List.ext_getElem?; intro k
    by_cases hk : k < 512
    · have h1 := e (k / 4) (k % 4) (by omega) (by omega)
      have h2 := rep_marker_getElem? c.reqMarker 128 (k / 4) (k % 4) (by omega) (by omega)
      rw [show 4 * (k / 4) + k % 4 = k by omega] at h1 h2
      rw [h1, magicPattern_eq, h2]
    · rw [List.getElem?_eq_none (by simp; omega), List.getElem?_eq_none (by simp [magicPattern]; omega)]

theorem Tag.putHeader_bytes (c : Config) (t : Tag) (length : Count) :
    (t.putHeader c length).bytes = (hdrEncode c length).bytes ++ t.bytes.drop 12 := by
  have := t.size
  simp only [Tag.putHeader, Tag.write_bytes]
  rw [splice_eq_append _ _ _ (by simp_all)]
  simp_all

theorem confirmBlock_bytes (c : Config) (b : Block) (m : Addr) :
    (confirmBlock c b m).bytes = c.replyMarker.bytes ++ be32 m ++ b.bytes.drop 8 := by
  simp only [confirmBlock_eq, Buf.write_bytes]
  rw [splice_eq_append _ 4 _ (by simp [splice_length]), splice_eq_append _ 0 _ (by simp)]
  simp [List.drop_append]

/-- A read frame, as a concatenation (R99). -/
theorem readFrame_bytes (c : Config) (b : Block) (avail : Count) (bs : List Byte) (h : bs.length ≤ framePayload) :
    (readFrame c b avail bs).bytes = (hdrEncode c avail).bytes ++ bs ++ b.bytes.drop (12 + bs.length) := by
  have hr : bs.length ≤ 500 := h
  simp only [readFrame_eq, Buf.write_bytes]
  rw [splice_eq_append _ 0 _ (by simp [splice_length]), splice_eq_append _ 12 _ (by simp; omega)]
  simp

end Sys2Proof
end

