-- ==== Sys2Proof/Laws/State.lean ====
section
/-! SUPPORT. What each write to the state leaves in each field. -/

namespace Sys2Proof.Machine

@[simp] theorem State.raise_cfg (s : State) (d : Diag) : (s.raise d).cfg = s.cfg := rfl
@[simp] theorem State.raise_phase (s : State) (d : Diag) : (s.raise d).phase = s.phase := rfl
@[simp] theorem State.raise_claimedDrive (s : State) (d : Diag) : (s.raise d).claimedDrive = s.claimedDrive := rfl
@[simp] theorem State.raise_magicSector (s : State) (d : Diag) : (s.raise d).magicSector = s.magicSector := rfl
@[simp] theorem State.raise_knockIdx (s : State) (d : Diag) : (s.raise d).knockIdx = s.knockIdx := rfl
@[simp] theorem State.raise_q (s : State) (d : Diag) : (s.raise d).q = s.q := rfl
@[simp] theorem State.raise_pending (s : State) (d : Diag) : (s.raise d).pending = s.pending := rfl
@[simp] theorem State.raise_xp (s : State) (d : Diag) : (s.raise d).xp = s.xp := rfl
@[simp] theorem State.raise_result (s : State) (d : Diag) : (s.raise d).result = s.result := rfl
@[simp] theorem State.raise_diag (s : State) (d : Diag) : (s.raise d).diag = s.diag ||| d.mask := rfl

@[simp] theorem State.clearOutputs_cfg (s : State) : (s.clearOutputs).cfg = s.cfg := rfl
@[simp] theorem State.clearOutputs_phase (s : State) : (s.clearOutputs).phase = s.phase := rfl
@[simp] theorem State.clearOutputs_claimedDrive (s : State) : (s.clearOutputs).claimedDrive = s.claimedDrive := rfl
@[simp] theorem State.clearOutputs_magicSector (s : State) : (s.clearOutputs).magicSector = s.magicSector := rfl
@[simp] theorem State.clearOutputs_knockIdx (s : State) : (s.clearOutputs).knockIdx = s.knockIdx := rfl
@[simp] theorem State.clearOutputs_q (s : State) : (s.clearOutputs).q = s.q := rfl
@[simp] theorem State.clearOutputs_pending (s : State) : (s.clearOutputs).pending = s.pending := rfl
@[simp] theorem State.clearOutputs_xp (s : State) : (s.clearOutputs).xp = s.xp := rfl
@[simp] theorem State.clearOutputs_result (s : State) : (s.clearOutputs).result = .none := rfl
@[simp] theorem State.clearOutputs_diag (s : State) : (s.clearOutputs).diag = 0 := rfl

@[simp] theorem State.setResult_cfg (s : State) (r : Result) : (s.setResult r).cfg = s.cfg := rfl
@[simp] theorem State.setResult_phase (s : State) (r : Result) : (s.setResult r).phase = s.phase := rfl
@[simp] theorem State.setResult_claimedDrive (s : State) (r : Result) : (s.setResult r).claimedDrive = s.claimedDrive := rfl
@[simp] theorem State.setResult_magicSector (s : State) (r : Result) : (s.setResult r).magicSector = s.magicSector := rfl
@[simp] theorem State.setResult_knockIdx (s : State) (r : Result) : (s.setResult r).knockIdx = s.knockIdx := rfl
@[simp] theorem State.setResult_q (s : State) (r : Result) : (s.setResult r).q = s.q := rfl
@[simp] theorem State.setResult_pending (s : State) (r : Result) : (s.setResult r).pending = s.pending := rfl
@[simp] theorem State.setResult_xp (s : State) (r : Result) : (s.setResult r).xp = s.xp := rfl
@[simp] theorem State.setResult_result (s : State) (r : Result) : (s.setResult r).result = r := rfl
@[simp] theorem State.setResult_diag (s : State) (r : Result) : (s.setResult r).diag = s.diag := rfl

@[simp] theorem State.setPhase_cfg (s : State) (p : Phase) : (s.setPhase p).cfg = s.cfg := rfl
@[simp] theorem State.setPhase_phase (s : State) (p : Phase) : (s.setPhase p).phase = p := rfl
@[simp] theorem State.setPhase_claimedDrive (s : State) (p : Phase) : (s.setPhase p).claimedDrive = s.claimedDrive := rfl
@[simp] theorem State.setPhase_magicSector (s : State) (p : Phase) : (s.setPhase p).magicSector = s.magicSector := rfl
@[simp] theorem State.setPhase_knockIdx (s : State) (p : Phase) : (s.setPhase p).knockIdx = s.knockIdx := rfl
@[simp] theorem State.setPhase_q (s : State) (p : Phase) : (s.setPhase p).q = s.q := rfl
@[simp] theorem State.setPhase_pending (s : State) (p : Phase) : (s.setPhase p).pending = s.pending := rfl
@[simp] theorem State.setPhase_xp (s : State) (p : Phase) : (s.setPhase p).xp = s.xp := rfl
@[simp] theorem State.setPhase_result (s : State) (p : Phase) : (s.setPhase p).result = s.result := rfl
@[simp] theorem State.setPhase_diag (s : State) (p : Phase) : (s.setPhase p).diag = s.diag := rfl

@[simp] theorem State.setClaimed_cfg (s : State) (d : DriveId) : (s.setClaimed d).cfg = s.cfg := rfl
@[simp] theorem State.setClaimed_phase (s : State) (d : DriveId) : (s.setClaimed d).phase = s.phase := rfl
@[simp] theorem State.setClaimed_claimedDrive (s : State) (d : DriveId) : (s.setClaimed d).claimedDrive = d := rfl
@[simp] theorem State.setClaimed_magicSector (s : State) (d : DriveId) : (s.setClaimed d).magicSector = s.magicSector := rfl
@[simp] theorem State.setClaimed_knockIdx (s : State) (d : DriveId) : (s.setClaimed d).knockIdx = s.knockIdx := rfl
@[simp] theorem State.setClaimed_q (s : State) (d : DriveId) : (s.setClaimed d).q = s.q := rfl
@[simp] theorem State.setClaimed_pending (s : State) (d : DriveId) : (s.setClaimed d).pending = s.pending := rfl
@[simp] theorem State.setClaimed_xp (s : State) (d : DriveId) : (s.setClaimed d).xp = s.xp := rfl
@[simp] theorem State.setClaimed_result (s : State) (d : DriveId) : (s.setClaimed d).result = s.result := rfl
@[simp] theorem State.setClaimed_diag (s : State) (d : DriveId) : (s.setClaimed d).diag = s.diag := rfl

@[simp] theorem State.setMagic_cfg (s : State) (a : Addr) : (s.setMagic a).cfg = s.cfg := rfl
@[simp] theorem State.setMagic_phase (s : State) (a : Addr) : (s.setMagic a).phase = s.phase := rfl
@[simp] theorem State.setMagic_claimedDrive (s : State) (a : Addr) : (s.setMagic a).claimedDrive = s.claimedDrive := rfl
@[simp] theorem State.setMagic_magicSector (s : State) (a : Addr) : (s.setMagic a).magicSector = a := rfl
@[simp] theorem State.setMagic_knockIdx (s : State) (a : Addr) : (s.setMagic a).knockIdx = s.knockIdx := rfl
@[simp] theorem State.setMagic_q (s : State) (a : Addr) : (s.setMagic a).q = s.q := rfl
@[simp] theorem State.setMagic_pending (s : State) (a : Addr) : (s.setMagic a).pending = s.pending := rfl
@[simp] theorem State.setMagic_xp (s : State) (a : Addr) : (s.setMagic a).xp = s.xp := rfl
@[simp] theorem State.setMagic_result (s : State) (a : Addr) : (s.setMagic a).result = s.result := rfl
@[simp] theorem State.setMagic_diag (s : State) (a : Addr) : (s.setMagic a).diag = s.diag := rfl

@[simp] theorem State.setKnock_cfg (s : State) (i : Fin knockLen) : (s.setKnock i).cfg = s.cfg := rfl
@[simp] theorem State.setKnock_phase (s : State) (i : Fin knockLen) : (s.setKnock i).phase = s.phase := rfl
@[simp] theorem State.setKnock_claimedDrive (s : State) (i : Fin knockLen) : (s.setKnock i).claimedDrive = s.claimedDrive := rfl
@[simp] theorem State.setKnock_magicSector (s : State) (i : Fin knockLen) : (s.setKnock i).magicSector = s.magicSector := rfl
@[simp] theorem State.setKnock_knockIdx (s : State) (i : Fin knockLen) : (s.setKnock i).knockIdx = i := rfl
@[simp] theorem State.setKnock_q (s : State) (i : Fin knockLen) : (s.setKnock i).q = s.q := rfl
@[simp] theorem State.setKnock_pending (s : State) (i : Fin knockLen) : (s.setKnock i).pending = s.pending := rfl
@[simp] theorem State.setKnock_xp (s : State) (i : Fin knockLen) : (s.setKnock i).xp = s.xp := rfl
@[simp] theorem State.setKnock_result (s : State) (i : Fin knockLen) : (s.setKnock i).result = s.result := rfl
@[simp] theorem State.setKnock_diag (s : State) (i : Fin knockLen) : (s.setKnock i).diag = s.diag := rfl

@[simp] theorem State.setQueue_cfg (s : State) (b : ByteSeq) : (s.setQueue b).cfg = s.cfg := rfl
@[simp] theorem State.setQueue_phase (s : State) (b : ByteSeq) : (s.setQueue b).phase = s.phase := rfl
@[simp] theorem State.setQueue_claimedDrive (s : State) (b : ByteSeq) : (s.setQueue b).claimedDrive = s.claimedDrive := rfl
@[simp] theorem State.setQueue_magicSector (s : State) (b : ByteSeq) : (s.setQueue b).magicSector = s.magicSector := rfl
@[simp] theorem State.setQueue_knockIdx (s : State) (b : ByteSeq) : (s.setQueue b).knockIdx = s.knockIdx := rfl
@[simp] theorem State.setQueue_q (s : State) (b : ByteSeq) : (s.setQueue b).q = b := rfl
@[simp] theorem State.setQueue_pending (s : State) (b : ByteSeq) : (s.setQueue b).pending = s.pending := rfl
@[simp] theorem State.setQueue_xp (s : State) (b : ByteSeq) : (s.setQueue b).xp = s.xp := rfl
@[simp] theorem State.setQueue_result (s : State) (b : ByteSeq) : (s.setQueue b).result = s.result := rfl
@[simp] theorem State.setQueue_diag (s : State) (b : ByteSeq) : (s.setQueue b).diag = s.diag := rfl

@[simp] theorem State.setPending_cfg (s : State) (l : List Request) : (s.setPending l).cfg = s.cfg := rfl
@[simp] theorem State.setPending_phase (s : State) (l : List Request) : (s.setPending l).phase = s.phase := rfl
@[simp] theorem State.setPending_claimedDrive (s : State) (l : List Request) : (s.setPending l).claimedDrive = s.claimedDrive := rfl
@[simp] theorem State.setPending_magicSector (s : State) (l : List Request) : (s.setPending l).magicSector = s.magicSector := rfl
@[simp] theorem State.setPending_knockIdx (s : State) (l : List Request) : (s.setPending l).knockIdx = s.knockIdx := rfl
@[simp] theorem State.setPending_q (s : State) (l : List Request) : (s.setPending l).q = s.q := rfl
@[simp] theorem State.setPending_pending (s : State) (l : List Request) : (s.setPending l).pending = l := rfl
@[simp] theorem State.setPending_xp (s : State) (l : List Request) : (s.setPending l).xp = s.xp := rfl
@[simp] theorem State.setPending_result (s : State) (l : List Request) : (s.setPending l).result = s.result := rfl
@[simp] theorem State.setPending_diag (s : State) (l : List Request) : (s.setPending l).diag = s.diag := rfl

@[simp] theorem State.logXp_cfg (s : State) (e : XpEvent) : (s.logXp e).cfg = s.cfg := rfl
@[simp] theorem State.logXp_phase (s : State) (e : XpEvent) : (s.logXp e).phase = s.phase := rfl
@[simp] theorem State.logXp_claimedDrive (s : State) (e : XpEvent) : (s.logXp e).claimedDrive = s.claimedDrive := rfl
@[simp] theorem State.logXp_magicSector (s : State) (e : XpEvent) : (s.logXp e).magicSector = s.magicSector := rfl
@[simp] theorem State.logXp_knockIdx (s : State) (e : XpEvent) : (s.logXp e).knockIdx = s.knockIdx := rfl
@[simp] theorem State.logXp_q (s : State) (e : XpEvent) : (s.logXp e).q = s.q := rfl
@[simp] theorem State.logXp_pending (s : State) (e : XpEvent) : (s.logXp e).pending = s.pending := rfl
@[simp] theorem State.logXp_xp (s : State) (e : XpEvent) : (s.logXp e).xp = e :: s.xp := rfl
@[simp] theorem State.logXp_result (s : State) (e : XpEvent) : (s.logXp e).result = s.result := rfl
@[simp] theorem State.logXp_diag (s : State) (e : XpEvent) : (s.logXp e).diag = s.diag := rfl

/-! The state at reset (R47). -/

@[simp] theorem State.resetWith_cfg (c : Config) : (State.resetWith c).cfg = c := rfl
@[simp] theorem State.resetWith_phase (c : Config) : (State.resetWith c).phase = .idle := rfl
@[simp] theorem State.resetWith_claimedDrive (c : Config) : (State.resetWith c).claimedDrive = 0 := rfl
@[simp] theorem State.resetWith_magicSector (c : Config) : (State.resetWith c).magicSector = 0 := rfl
@[simp] theorem State.resetWith_knockIdx (c : Config) : (State.resetWith c).knockIdx = 0 := rfl
@[simp] theorem State.resetWith_pending (c : Config) : (State.resetWith c).pending = [] := rfl
@[simp] theorem State.resetWith_xp (c : Config) : (State.resetWith c).xp = [] := rfl
@[simp] theorem State.resetWith_result (c : Config) : (State.resetWith c).result = .none := rfl
@[simp] theorem State.resetWith_diag (c : Config) : (State.resetWith c).diag = 0 := rfl
@[simp] theorem State.resetWith_q (c : Config) : (State.resetWith c).q.bytes = [] := rfl

end Sys2Proof.Machine
end

