-- ==== Sys2Proof/Laws/Queue.lean ====
section
/-! SUPPORT. What the queue operations and the transport functions do, one law each, and what they leave alone. -/

namespace Sys2Proof.Machine

/-- What the Channel Handler and everything below it can change: the queue, the record of external calls, the diagnostics
(R180). The rest stays. -/
structure TransportFrame (s t : State) : Prop where
  cfg : t.cfg = s.cfg
  phase : t.phase = s.phase
  claimedDrive : t.claimedDrive = s.claimedDrive
  magicSector : t.magicSector = s.magicSector
  knockIdx : t.knockIdx = s.knockIdx
  pending : t.pending = s.pending
  result : t.result = s.result

theorem TransportFrame.refl (s : State) : TransportFrame s s := ⟨rfl, rfl, rfl, rfl, rfl, rfl, rfl⟩

theorem TransportFrame.trans {s t u : State} (h : TransportFrame s t) (k : TransportFrame t u) : TransportFrame s u :=
  ⟨k.1.trans h.1, k.2.trans h.2, k.3.trans h.3, k.4.trans h.4, k.5.trans h.5, k.6.trans h.6, k.7.trans h.7⟩

theorem raise_frame (s : State) (d : Diag) : TransportFrame s (s.raise d) := ⟨rfl, rfl, rfl, rfl, rfl, rfl, rfl⟩
theorem setQueue_frame (s : State) (b : ByteSeq) : TransportFrame s (s.setQueue b) := ⟨rfl, rfl, rfl, rfl, rfl, rfl, rfl⟩
theorem logXp_frame (s : State) (e : XpEvent) : TransportFrame s (s.logXp e) := ⟨rfl, rfl, rfl, rfl, rfl, rfl, rfl⟩

/-! ### Push -/

/-- A batch that fits goes to the back of the queue, and nothing else happens (R200). -/
theorem push_fits {batch : ByteSeq} {s : State} (h : s.q.bytes.length + batch.bytes.length ≤ s.cfg.fifoCap.toNat) :
    ∃ q' : ByteSeq, q'.bytes = s.q.bytes ++ batch.bytes ∧ push batch s = s.setQueue q' := by
  simp only [push, appendIfFits, h, dite_true]
  exact ⟨_, rfl, rfl⟩

/-- A batch that does not fit is dropped whole, and the diagnostic is raised (R201). -/
theorem push_overflows {batch : ByteSeq} {s : State} (h : ¬ s.q.bytes.length + batch.bytes.length ≤ s.cfg.fifoCap.toNat) :
    push batch s = s.raise .queueOverflow := by
  simp only [push, appendIfFits, h, dite_false]

theorem push_frame (batch : ByteSeq) (s : State) : TransportFrame s (push batch s) := by
  by_cases h : s.q.bytes.length + batch.bytes.length ≤ s.cfg.fifoCap.toNat
  · obtain ⟨q', -, e⟩ := push_fits h; rw [e]; exact setQueue_frame _ _
  · rw [push_overflows h]; exact raise_frame _ _

theorem push_xp (batch : ByteSeq) (s : State) : (push batch s).xp = s.xp := by
  by_cases h : s.q.bytes.length + batch.bytes.length ≤ s.cfg.fifoCap.toNat
  · obtain ⟨q', -, e⟩ := push_fits h; rw [e]; rfl
  · rw [push_overflows h]; rfl

theorem push_q (batch : ByteSeq) (s : State) :
    (push batch s).q.bytes =
      if s.q.bytes.length + batch.bytes.length ≤ s.cfg.fifoCap.toNat then s.q.bytes ++ batch.bytes else s.q.bytes := by
  split
  next h => obtain ⟨q', e, e'⟩ := push_fits h; rw [e']; exact e
  next h => rw [push_overflows h]; rfl

theorem push_diag (batch : ByteSeq) (s : State) :
    (push batch s).diag =
      if s.q.bytes.length + batch.bytes.length ≤ s.cfg.fifoCap.toNat then s.diag else s.diag ||| Diag.queueOverflow.mask := by
  split
  next h => obtain ⟨q', e, e'⟩ := push_fits h; rw [e']; rfl
  next h => rw [push_overflows h]; rfl

/-- A push keeps the queue within its capacity (R39). -/
theorem push_bounded {batch : ByteSeq} {s : State} (h : s.q.bytes.length ≤ s.cfg.fifoCap.toNat) :
    (push batch s).q.bytes.length ≤ s.cfg.fifoCap.toNat := by
  rw [push_q]; split
  next hf => rw [List.length_append]; exact hf
  next => exact h

/-! ### Pop and Available -/

@[simp] theorem frontBytes_bytes (q : ByteSeq) (n : Count) : (frontBytes q n).bytes = q.bytes.take n.toNat := rfl
@[simp] theorem restBytes_bytes (q : ByteSeq) (n : Count) : (restBytes q n).bytes = q.bytes.drop n.toNat := rfl
@[simp] theorem pop_fst (n : Count) (s : State) : (pop n s).1 = frontBytes s.q n := rfl
@[simp] theorem pop_snd (n : Count) (s : State) : (pop n s).2 = s.setQueue (restBytes s.q n) := rfl

/-- The count at the port is the number of bytes queued: it fits in 16 bits (R206, R208). -/
@[simp] theorem available_toNat (s : State) : (available s).toNat = s.q.bytes.length := by
  have := s.q.size
  simp [available]; omega

/-! ### The transport -/

theorem externalBytes_length (log : List XpEvent) (n : Count) : (externalBytes log n).bytes.length ≤ n.toNat := by
  simp [externalBytes]

theorem transportRead_loopback {s : State} (n : Count) (h : s.cfg.transport = .loopback) :
    transportRead n s = ((available s, frontBytes s.q n), s.setQueue (restBytes s.q n)) := by
  simp [transportRead, h]

theorem transportRead_external {s : State} (n : Count) (h : s.cfg.transport = .external) :
    transportRead n s = ((Config.externalAvail (.read n :: s.xp), externalBytes (.read n :: s.xp) n), s.logXp (.read n)) := by
  simp [transportRead, h]

/-- `n <= maxLen`, in both modes (R215). -/
theorem transportRead_length (n : Count) (s : State) : (transportRead n s).1.2.bytes.length ≤ n.toNat := by
  cases h : s.cfg.transport
  · simp [transportRead_loopback n h]
  · simp [transportRead_external n h, externalBytes_length]

theorem transportRead_frame (n : Count) (s : State) : TransportFrame s (transportRead n s).2 := by
  cases h : s.cfg.transport
  · rw [transportRead_loopback n h]; exact setQueue_frame _ _
  · rw [transportRead_external n h]; exact logXp_frame _ _

theorem transportRead_diag (n : Count) (s : State) : (transportRead n s).2.diag = s.diag := by
  cases h : s.cfg.transport
  · rw [transportRead_loopback n h]; rfl
  · rw [transportRead_external n h]; rfl

theorem transportRead_bounded {n : Count} {s : State} (h : s.q.bytes.length ≤ s.cfg.fifoCap.toNat) :
    (transportRead n s).2.q.bytes.length ≤ s.cfg.fifoCap.toNat := by
  cases ht : s.cfg.transport
  · rw [transportRead_loopback n ht]; simp; omega
  · rw [transportRead_external n ht]; exact h

theorem transportWrite_loopback {s : State} (b : ByteSeq) (h : s.cfg.transport = .loopback) :
    transportWrite b s = push b s := by
  simp [transportWrite, h]

theorem transportWrite_external {s : State} (b : ByteSeq) (h : s.cfg.transport = .external) :
    transportWrite b s = s.logXp (.wrote b) := by
  simp [transportWrite, h]

theorem transportWrite_frame (b : ByteSeq) (s : State) : TransportFrame s (transportWrite b s) := by
  cases h : s.cfg.transport
  · rw [transportWrite_loopback b h]; exact push_frame _ _
  · rw [transportWrite_external b h]; exact logXp_frame _ _

theorem transportWrite_bounded {b : ByteSeq} {s : State} (h : s.q.bytes.length ≤ s.cfg.fifoCap.toNat) :
    (transportWrite b s).q.bytes.length ≤ s.cfg.fifoCap.toNat := by
  cases ht : s.cfg.transport
  · rw [transportWrite_loopback b ht]; exact push_bounded h
  · rw [transportWrite_external b ht]; exact h

end Sys2Proof.Machine
end

