-- ==== Sys2Proof/Laws/Channel.lean ====
section
/-! SUPPORT. What the Channel Handler does, and what it leaves alone (spec/43_channel_handler.md). -/

namespace Sys2Proof.Machine

theorem noteClamp_frame (p : Placement) (l : Count) (s : State) : TransportFrame s (noteClamp p l s) := by
  unfold noteClamp; split
  · exact raise_frame _ _
  · exact TransportFrame.refl s

@[simp] theorem noteClamp_q (p : Placement) (l : Count) (s : State) : (noteClamp p l s).q = s.q := by
  unfold noteClamp; split <;> rfl

@[simp] theorem noteClamp_xp (p : Placement) (l : Count) (s : State) : (noteClamp p l s).xp = s.xp := by
  unfold noteClamp; split <;> rfl

theorem noteClamp_diag (p : Placement) (l : Count) (s : State) :
    (noteClamp p l s).diag = if (capacity p).toNat < l.toNat then s.diag ||| Diag.lengthClamped.mask else s.diag := by
  simp only [noteClamp, exceeds, decide_eq_true_eq]; split <;> rfl

@[simp] theorem capacity_inTag : capacity .inTag = 512 := rfl
@[simp] theorem capacity_inBlk : capacity .inBlk = 500 := rfl
@[simp] theorem payloadOffset_inTag : payloadOffset .inTag = 0 := rfl
@[simp] theorem payloadOffset_inBlk : payloadOffset .inBlk = 12 := rfl

theorem clampLength_toNat (p : Placement) (l : Count) : (clampLength p l).toNat = min l.toNat (capacity p).toNat := by
  simp only [clampLength, exceeds, decide_eq_true_eq]; split <;> omega

/-- After the clamp a payload never reaches past the block (R24 (g), R103). -/
theorem payload_length (p : Placement) (len : Count) (blk : Block) (h : len.toNat ≤ (capacity p).toNat) :
    (payload p len blk).bytes.length = len.toNat := by
  apply Buf.slice_length
  cases p
  · have : len.toNat ≤ 512 := h
    simpa [payloadOffset] using this
  · have : len.toNat ≤ 500 := h
    simp [payloadOffset, blockLen]; omega

/-- The read path with R181's own number. -/
theorem channelRead_eq (t : Tag) (b : Block) (s : State) :
    channelRead t b s =
      (⟨true, t, readFrame s.cfg b (transportRead 500 s).1.1 (transportRead 500 s).1.2.bytes⟩, (transportRead 500 s).2) := rfl

/-- What a host takes out of a read frame, with R183's own numbers. -/
theorem receivedPayload_eq (blk : Block) :
    receivedPayload blk = blk.slice 12 (min (ube16 (blk.get 6 (by decide)) (blk.get 7 (by decide))).toNat 500) := rfl

/-- The read path is always handled and returns the tag as it came (R184, R99). -/
@[simp] theorem channelRead_handled (t : Tag) (b : Block) (s : State) : (channelRead t b s).1.handled = true := rfl
@[simp] theorem channelRead_tag (t : Tag) (b : Block) (s : State) : (channelRead t b s).1.tag = t := rfl
theorem channelRead_blk (t : Tag) (b : Block) (s : State) :
    (channelRead t b s).1.blk = readFrame s.cfg b (transportRead 500 s).1.1 (transportRead 500 s).1.2.bytes := rfl
theorem channelRead_snd (t : Tag) (b : Block) (s : State) : (channelRead t b s).2 = (transportRead 500 s).2 := rfl

theorem forwardFrame_frame (p : Placement) (l : Count) (t : Tag) (b : Block) (s : State) :
    TransportFrame s (forwardFrame p l t b s).2 :=
  (noteClamp_frame p l s).trans (transportWrite_frame _ _)

/-- A channel write either forwards the frame its header announces or is rejected (R186, R187). -/
theorem channelWrite_cases (t : Tag) (b : Block) (s : State) :
    (∃ p l, locateHeader s.cfg t b = some (p, l) ∧ channelWrite t b s = forwardFrame p l t b s) ∨
    (locateHeader s.cfg t b = none ∧ channelWrite t b s = rejectFrame t b s) := by
  cases h : locateHeader s.cfg t b with
  | none => exact .inr ⟨rfl, by simp [channelWrite, h]⟩
  | some x => obtain ⟨p, l⟩ := x; exact .inl ⟨p, l, rfl, by simp [channelWrite, h]⟩

/-- A channel write returns both buffers as they came (R190). -/
theorem channelWrite_buffers (t : Tag) (b : Block) (s : State) :
    (channelWrite t b s).1.tag = t ∧ (channelWrite t b s).1.blk = b := by
  obtain ⟨p, l, -, e⟩ | ⟨-, e⟩ := channelWrite_cases t b s <;> rw [e] <;> exact ⟨rfl, rfl⟩

theorem channelWrite_frame (t : Tag) (b : Block) (s : State) : TransportFrame s (channelWrite t b s).2 := by
  obtain ⟨p, l, -, e⟩ | ⟨-, e⟩ := channelWrite_cases t b s <;> rw [e]
  · exact forwardFrame_frame _ _ _ _ _
  · exact raise_frame _ _

/-- The Channel Handler reads and writes nothing of the session record (R180). -/
theorem channelHandle_frame (d : Dir) (t : Tag) (b : Block) (s : State) : TransportFrame s (channelHandle d t b s).2 := by
  cases d
  · exact transportRead_frame _ _
  · exact channelWrite_frame _ _ _

/-- The Channel Handler refuses exactly the writes with no request header (R184, R187). -/
theorem channelHandle_refuses (d : Dir) (t : Tag) (b : Block) (s : State) :
    (channelHandle d t b s).1.handled = false ↔
      d = .write ∧ (hdrDecode s.cfg t.header).1 = false ∧ (hdrDecode s.cfg b.header).1 = false := by
  cases d
  · simp [channelHandle]
  · simp only [channelHandle, channelWrite, locateHeader]
    cases h : (hdrDecode s.cfg t.header).1 <;> cases h' : (hdrDecode s.cfg b.header).1 <;> simp [forwardFrame, rejectFrame]

/-- The row that handles a direction and two buffers does what the Channel Handler does with them (R180, R192). -/
theorem exec_channelRow (d : Dir) (t : Tag) (b : Block) (s : State) :
    exec (channelRow s.cfg d t b) s = replyWith (channelHandle d t b s.clearOutputs) := by
  cases d
  · rfl
  · by_cases h : (hdrDecode s.cfg t.header).1 = true <;> by_cases h' : (hdrDecode s.cfg b.header).1 = true <;>
      simp [channelRow, channelHandle, channelWrite, locateHeader, h, h', exec, execChWrTag, execChWrBlk, execChWrReject]

theorem channelHandle_bounded {d : Dir} {t : Tag} {b : Block} {s : State} (h : s.q.bytes.length ≤ s.cfg.fifoCap.toNat) :
    (channelHandle d t b s).2.q.bytes.length ≤ s.cfg.fifoCap.toNat := by
  cases d
  · exact transportRead_bounded h
  · simp only [channelHandle]
    obtain ⟨p, l, -, e⟩ | ⟨-, e⟩ := channelWrite_cases t b s <;> rw [e]
    · have hf := noteClamp_frame p l s
      have := transportWrite_bounded (s := noteClamp p l s) (b := payload p (clampLength p l) b) (by simp [hf.cfg, h])
      rwa [hf.cfg] at this
    · exact h

end Sys2Proof.Machine
end

