-- ==== Sys2Proof/Laws/Handshake.lean ====
section
/-! SUPPORT. What each step of an access does, and what it leaves alone (spec/41_handshake.md). -/

namespace Sys2Proof.Machine

@[simp] theorem checkMagic_cfg (b : Block) (s : State) : (checkMagic b s).cfg = s.cfg := by unfold checkMagic; split <;> rfl
@[simp] theorem checkMagic_claimedDrive (b : Block) (s : State) : (checkMagic b s).claimedDrive = s.claimedDrive := by unfold checkMagic; split <;> rfl
@[simp] theorem checkMagic_knockIdx (b : Block) (s : State) : (checkMagic b s).knockIdx = s.knockIdx := by unfold checkMagic; split <;> rfl
@[simp] theorem checkMagic_q (b : Block) (s : State) : (checkMagic b s).q = s.q := by unfold checkMagic; split <;> rfl
@[simp] theorem checkMagic_pending (b : Block) (s : State) : (checkMagic b s).pending = s.pending := by unfold checkMagic; split <;> rfl
@[simp] theorem checkMagic_xp (b : Block) (s : State) : (checkMagic b s).xp = s.xp := by unfold checkMagic; split <;> rfl

/-- Knock detection ends in one of three ways: the knock is complete, the counter advances, or it goes back to 0 (R112). -/
theorem knockStep_cases (a : Access) (s : State) :
    (a.addr = s.expected ∧ s.knockIdx = 4 ∧ knockStep a s = (a.tag.putHeader s.cfg 0, knockDone a.drive s)) ∨
    (a.addr = s.expected ∧ s.knockIdx ≠ 4 ∧ knockStep a s = (a.tag, knockHit s)) ∨
    (a.addr ≠ s.expected ∧ knockStep a s = (a.tag, knockMiss s)) := by
  unfold knockStep
  by_cases h : a.addr = s.expected
  · by_cases h4 : s.knockIdx = 4 <;> simp [h, h4]
  · simp [h]

/-- `KNOCK[knock_idx]` at the last index (R140). -/
theorem expected_last {s : State} (h : s.knockIdx = 4) : s.expected = s.cfg.knock[4] := by simp only [State.expected, h]; rfl

theorem knDone_holds_iff (a : Access) (s : State) :
    AccessClass.knDone.holds s a = true ↔ a.addr ≠ s.cfg.sentinel ∧ a.addr = s.cfg.knock[4] ∧ s.knockIdx = 4 := by
  simp [AccessClass.holds, State.ordinary, and_assoc]

theorem knHit_holds_iff (a : Access) (s : State) :
    AccessClass.knHit.holds s a = true ↔ a.addr ≠ s.cfg.sentinel ∧ a.addr = s.expected ∧ s.knockIdx.val ≤ 3 := by
  have : s.knockIdx < knockLast ↔ s.knockIdx.val ≤ 3 := by generalize s.knockIdx = k; revert k; decide
  simp only [AccessClass.holds, State.ordinary, Bool.and_eq_true, bne_iff_ne, beq_iff_eq, decide_eq_true_eq, this, and_assoc]

theorem knMiss_holds_iff (a : Access) (s : State) :
    AccessClass.knMiss.holds s a = true ↔ a.addr ≠ s.cfg.sentinel ∧ a.addr ≠ s.expected := by
  simp only [AccessClass.holds, State.ordinary, Bool.and_eq_true, bne_iff_ne]

/-- Knock detection with R112's own number. -/
theorem knockStep_eq (a : Access) (s : State) :
    knockStep a s =
      if a.addr = s.expected then
        if s.knockIdx = 4 then (a.tag.putHeader s.cfg 0, knockDone a.drive s) else (a.tag, knockHit s)
      else (a.tag, knockMiss s) := rfl

/-- An ordinary access completes the knock, or only moves the counter (R112, R136, R137, R140). -/
theorem knockStep_done_or_not {a : Access} {s : State} (h : a.addr ≠ s.cfg.sentinel) :
    (AccessClass.knDone.holds s a = true ∧ knockStep a s = (a.tag.putHeader s.cfg 0, knockDone a.drive s)) ∨
    (AccessClass.knDone.holds s a = false ∧ ∃ i, knockStep a s = (a.tag, s.setKnock i)) := by
  obtain ⟨h1, h2, e⟩ | ⟨h1, h2, e⟩ | ⟨h1, e⟩ := knockStep_cases a s
  · exact .inl ⟨(knDone_holds_iff a s).2 ⟨h, h1.trans (expected_last h2), h2⟩, e⟩
  · refine .inr ⟨?_, _, e⟩
    rw [← Bool.not_eq_true, knDone_holds_iff]; exact fun h => h2 h.2.2
  · refine .inr ⟨?_, _, e⟩
    rw [← Bool.not_eq_true, knDone_holds_iff]; exact fun h => h1 (h.2.1.trans (expected_last h.2.2).symm)

/-- A class looks at no output and at nothing the environment holds. -/
theorem holds_clear (k : AccessClass) (a : Access) (s : State) (l : List Request) :
    k.holds (s.setPending l).clearOutputs a = k.holds s a := by cases k <;> rfl

/-- Phase dispatch ends in one of six ways (R144 to R158). -/
theorem phaseDispatch_cases (a : Access) (s : State) :
    (phaseDispatch a s = passThrough a s) ∨
    (s.phase = .claimedDrive ∧ a.dir = .write ∧ a.drive = s.claimedDrive ∧ phaseDispatch a s = acceptClaim a s) ∨
    (s.phase = .sectorPending ∧ a.dir = .read ∧ a.drive = s.claimedDrive ∧ a.addr = s.magicSector ∧
      phaseDispatch a s = confirmClaim a s) ∨
    (s.phase = .sectorPending ∧ phaseDispatch a s = passThrough a (s.raise .protoMismatch)) ∨
    (s.phase = .active ∧ a.addr = s.magicSector ∧ a.drive = s.claimedDrive ∧
      phaseDispatch a s = channelHandle a.dir a.tag a.blk s) ∨
    (s.phase = .active ∧ a.addr = s.magicSector ∧ a.drive ≠ s.claimedDrive ∧
      phaseDispatch a s = passThrough a (s.raise .driveConflict)) := by
  unfold phaseDispatch
  cases hp : s.phase
  · simp
  · by_cases h : a.dir = .write ∧ a.drive = s.claimedDrive <;> simp [h]
  · by_cases h : a.dir = .read ∧ a.drive = s.claimedDrive ∧ a.addr = s.magicSector <;> simp [h]
  · by_cases h : a.addr = s.magicSector <;> by_cases h' : a.drive = s.claimedDrive <;> simp [h, h']

/-- An access is a sentinel access, or the knock step and then the dispatch (R130, R142). -/
theorem accessSteps_sentinel {a : Access} {s : State} (h : a.addr = s.cfg.sentinel) : accessSteps a s = sentinelAccess a s := by
  simp [accessSteps, h]

theorem accessSteps_ordinary {a : Access} {s : State} (h : a.addr ≠ s.cfg.sentinel) :
    accessSteps a s = phaseDispatch { a with tag := (knockStep a s).1 } (knockStep a s).2 := by
  simp [accessSteps, h]

theorem sentinelAccess_handled (a : Access) (s : State) : (sentinelAccess a s).1.handled = true := rfl

theorem sentinelAccess_snd (a : Access) (s : State) :
    (sentinelAccess a s).2 =
      if s.phase = .active then (channelHandle a.dir a.tag a.blk s).2 else (channelHandle a.dir a.tag a.blk s).2.setPhase .idle := by
  simp only [sentinelAccess, (channelHandle_frame a.dir a.tag a.blk s).phase]

/-! ### The rows of the classes -/

/-- A row of stage C does what phase dispatch does with an access of its class (R113 to R116). -/
theorem exec_dispatch_row (k : AccessClass) (a : Access) (s : State) (hk : k.stage = .dispatch) (h : k.holds s a = true) :
    exec (k.instr a) s = replyWith (phaseDispatch a s.clearOutputs) := by
  cases k <;> simp [AccessClass.stage] at hk <;> (simp only [AccessClass.instr, exec, execPhIdle, execPhClaimAccept, execPhClaimPass, execPhPendConfirm, execPhPendMiss, execPhActRd, execPhActWr, execPhActConflict, execPhActPass]; rw [if_pos h]; simp [AccessClass.holds, State.ordinary] at h)
  · simp [phaseDispatch, h]
  · simp [phaseDispatch, h]
  · have : ¬(a.dir = .write ∧ a.drive = s.claimedDrive) := by tauto
    simp [phaseDispatch, h.1.2, this]
  · simp only [phaseDispatch, State.clearOutputs_phase, h.1.2, State.clearOutputs_claimedDrive, State.clearOutputs_magicSector, h.2]; simp
  · have : ¬(a.dir = .read ∧ a.drive = s.claimedDrive ∧ a.addr = s.magicSector) := by tauto
    simp [phaseDispatch, h.1.2, this]
  all_goals (simp only [phaseDispatch, State.clearOutputs_phase, State.clearOutputs_claimedDrive, State.clearOutputs_magicSector]; simp [h, channelHandle])

/-- A row of stage B does what knock detection does with an access of its class (R112). -/
theorem exec_knock_row (k : AccessClass) (a : Access) (s : State) (hk : k.stage = .knock) (h : k.holds s a = true) :
    ∃ u, exec (k.instr a) s = .next u ∧ knockStep a s.clearOutputs = ((seenAfter a u).tag, u.setResult .none) ∧ seenAfter a u = { a with tag := (seenAfter a u).tag } := by
  cases k <;> simp [AccessClass.stage] at hk <;> (simp only [AccessClass.instr, exec, execKnHit, execKnDone, execKnMiss]; rw [if_pos h]; simp [AccessClass.holds, State.ordinary] at h)
  · refine ⟨_, rfl, ?_, rfl⟩
    have : s.knockIdx ≠ 4 := by rintro e; simp [e] at h
    have he : a.addr = s.clearOutputs.expected := h.1.2
    simp only [knockStep, if_pos he]; exact if_neg this
  · refine ⟨_, rfl, ?_, rfl⟩
    have he : a.addr = s.clearOutputs.expected := h.1.2.trans (expected_last (s := s.clearOutputs) h.2).symm
    simp only [knockStep, if_pos he]; exact if_pos h.2
  · refine ⟨_, rfl, ?_, rfl⟩
    have he : ¬ a.addr = s.clearOutputs.expected := h.2
    simp only [knockStep, if_neg he]; rfl

/-! ### What no access writes -/

/-- The configuration and the environment's coming operations are not written by an access (R77). -/
theorem accessSteps_setting (a : Access) (s : State) : SameSetting s (accessSteps a s).2 := by
  by_cases hs : a.addr = s.cfg.sentinel
  · rw [accessSteps_sentinel hs, sentinelAccess_snd]
    have hf := channelHandle_frame a.dir a.tag a.blk s
    split
    · exact ⟨hf.cfg, hf.pending⟩
    · exact ⟨hf.cfg, hf.pending⟩
  · rw [accessSteps_ordinary hs]
    have hk : SameSetting s (knockStep a s).2 := by
      obtain ⟨-, -, e⟩ | ⟨-, -, e⟩ | ⟨-, e⟩ := knockStep_cases a s <;> rw [e] <;> exact ⟨rfl, rfl⟩
    generalize (knockStep a s).1 = t at *
    generalize (knockStep a s).2 = u at *
    obtain e | ⟨-, -, -, e⟩ | ⟨-, -, -, -, e⟩ | ⟨-, e⟩ | ⟨-, -, -, e⟩ | ⟨-, -, -, e⟩ := phaseDispatch_cases { a with tag := t } u <;>
      rw [e]
    · exact hk
    · exact ⟨by simp [acceptClaim, hk.1], by simp [acceptClaim, hk.2]⟩
    · exact hk
    · exact hk
    · have hf := channelHandle_frame a.dir t a.blk u
      exact ⟨hf.cfg.trans hk.1, hf.pending.trans hk.2⟩
    · exact hk

/-- An access answers a next state, whatever the state and the operands (R21). -/
theorem execIsChannelIO_eq (a : Access) (s : State) :
    execIsChannelIO a s = .next ((accessSteps a s.clearOutputs).2.setResult (.reply (accessSteps a s.clearOutputs).1)) := rfl

end Sys2Proof.Machine
end

