-- ==== Sys2Proof/Laws/Step.lean ====
section
/-! SUPPORT. What the decoder answers and what a step can do. -/

namespace Sys2Proof

theorem keyAddr_accessKey (d : Dir) (a : Addr) : keyAddr (accessKey d a) = a := by
  have := a.isLt
  apply BitVec.eq_of_toNat_eq
  cases d
  · simp [keyAddr, accessKey, Dir.bit]
  · simp [keyAddr, accessKey, Dir.bit]; omega

theorem keyDir_accessKey (d : Dir) (a : Addr) : keyDir (accessKey d a) = d := by
  have := a.isLt
  cases d
  · simp [keyDir, accessKey, Dir.bit]; omega
  · simp [keyDir, accessKey, Dir.bit]; omega

theorem accessKey_lt (d : Dir) (a : Addr) : accessKey d a < 2 ^ 33 := by
  have := a.isLt
  cases d
  · simp [accessKey, Dir.bit]; omega
  · simp [accessKey, Dir.bit]; omega

/-- An access of its port's shape decodes. -/
theorem decode_access_of_shape {c : Config} {drive key : Nat} {tag blk : List Byte} (hk : key < 2 ^ 33)
    (hd : driveFits c drive = true) (ht : 12 ≤ tag.length) (hl : tag.length = c.tagLen) (hb : blk.length = 512) :
    decode c (.access drive key tag blk) = .ok (.isChannelIO ⟨drive, keyAddr key, keyDir key, ⟨tag, ht⟩, ⟨blk, hb⟩⟩) := by
  simp only [decode]
  rw [if_pos (show key < 2 ^ (addrW + 1) from hk), if_pos hd, dif_pos (show hdrLen ≤ tag.length from ht), if_pos hl, dif_pos hb]

theorem decode_push (c : Config) (bytes : List Byte) :
    decode c (.push bytes) = if h : bytes.length ≤ 65535 then .ok (.qPush ⟨bytes, h⟩) else .error .batchTooLong := rfl

theorem decode_pop (c : Config) (n : Nat) :
    decode c (.pop n) = if n < 2 ^ 16 then .ok (.qPop (BitVec.ofNat 16 n)) else .error .maxLenTooWide := rfl

/-- A decoded access had the shape of its port, and is the access presented. -/
theorem decode_access_ok {c : Config} {drive key : Nat} {tag blk : List Byte} {i : Instr}
    (h : decode c (.access drive key tag blk) = .ok i) :
    ∃ a : Access, i = .isChannelIO a ∧ a.fits c = true ∧ a.drive = drive ∧ a.addr = keyAddr key ∧ a.dir = keyDir key ∧
      a.tag.bytes = tag ∧ a.blk.bytes = blk := by
  simp only [decode] at h
  repeat (split at h <;> try contradiction)
  cases h
  exact ⟨_, rfl, by simp_all [Access.fits, Tag.fits], rfl, rfl, rfl, rfl, rfl⟩

end Sys2Proof

namespace Sys2Proof.Machine

/-- A step that answers a next state waited, with nothing presented, or ran the operation the oldest request decodes to. -/
theorem step_cases {s t : State} (h : step s = .next t) :
    (s.pending = [] ∧ t = s) ∨
    ∃ r rest i, s.pending = r :: rest ∧ decode s.cfg r = .ok i ∧ exec i (s.setPending rest) = .next t := by
  unfold step at h
  split at h
  next hp => cases h; exact .inl ⟨hp, rfl⟩
  next r rest hp =>
    split at h
    next i hd => exact .inr ⟨r, rest, i, hp, hd, h⟩
    next => cases h

theorem isQueueOp_cases {i : Instr} (h : isQueueOp i = true) : (∃ b, i = .qPush b) ∨ (∃ n, i = .qPop n) ∨ i = .qAvail := by
  cases i <;> first | exact absurd h Bool.false_ne_true | simp

/-- What a decoded request can be: an access of the port's shape, or an operation of the queue port, or a reset. -/
theorem decode_cases {c : Config} {r : Request} {i : Instr} (h : decode c r = .ok i) :
    (∃ a : Access, i = .isChannelIO a ∧ a.fits c = true) ∨ (∃ b, i = .qPush b) ∨ (∃ n, i = .qPop n) ∨ i = .qAvail ∨ i = .reset := by
  cases r with
  | access drive key tag blk =>
    obtain ⟨a, rfl, ha, -⟩ := decode_access_ok h
    exact .inl ⟨a, rfl, ha⟩
  | push bytes =>
    simp only [decode] at h
    split at h
    · cases h; exact .inr (.inl ⟨_, rfl⟩)
    · cases h
  | pop n =>
    simp only [decode] at h
    split at h
    · cases h; exact .inr (.inr (.inl ⟨_, rfl⟩))
    · cases h
  | available => cases h; exact .inr (.inr (.inr (.inl rfl)))
  | reset => cases h; exact .inr (.inr (.inr (.inr rfl)))

end Sys2Proof.Machine
end

