-- ==== Sys2Proof/Tests/Slice0.lean ====
section
/-! SUPPORT. Tests on fixed values, every expected byte taken from the spec (its rules' examples and the vectors V-… of 95_test_vectors.md,
all under its instantiation T0), and for each statement with hypotheses a witness that they are met together. -/

namespace Sys2Proof.Tests

open Sys2Proof.Machine

/-! ### Small states -/

abbrev T0 : Config := Config.reference
/-- T0 with an external transport. -/
def T0ext : Config := { T0.toParams with transport := .external, valid := by decide }
/-- T0 with `FIFO_CAP = 1` (V-Q-9). -/
def T0one : Config := { T0.toParams with fifoCap := 1, valid := by decide }

def seqOf (l : List Byte) (h : l.length ≤ 65535 := by decide) : ByteSeq := ⟨l, h⟩
/-- `n` bytes `11`. -/
def fill (n : Nat) (h : n ≤ 65535 := by decide) : ByteSeq := ⟨List.replicate n 0x11, by simpa using h⟩

def at0 (p : Phase) (cd : DriveId) (ms : Addr) (ki : Fin 5) (q : ByteSeq) : State :=
  { State.reset with phase := p, claimedDrive := cd, magicSector := ms, knockIdx := ki, q := q }

def none0 : ByteSeq := seqOf []
/-- The standing states of 95_test_vectors.md 1.2, and the state before a magic write. -/
def act2 : State := at0 .active 2 0x00012345 0 none0
def pend2 : State := at0 .sectorPending 2 0x00012345 0 none0
def claimed2 : State := at0 .claimedDrive 2 0 0 none0

abbrev magic : Addr := 0x00012345
abbrev sentinel : Addr := 0xFFFFFFFF
abbrev RD (d : DriveId) (a : Addr) : Access := accessRD T0 d a
abbrev WR (d : DriveId) (a : Addr) (tag blk : List Byte) : Access := accessWR T0 d a tag blk

/-- A request header of length `hi lo`. -/
def req (hi lo : Byte) : List Byte := [0xA1, 0xA2, 0xA3, 0xA4, 0, 0, hi, lo, 0, 0, 0, 0]
/-- A reply header of length `hi lo`. -/
def rep (hi lo : Byte) : List Byte := [0xB1, 0xB2, 0xB3, 0xB4, 0, 0, hi, lo, 0, 0, 0, 0]
/-- The tag not given: 12 bytes `EE`. -/
def tagEE : Tag := tagOf 12 []
def blkEE : Block := blockOf []
def hdr (l : List Byte) (h : l.length = 12 := by decide) : Header := ⟨l, h⟩

/-- Whether `exec` answers a next state and that state passes. -/
def run (i : Instr) (s : State) (f : State → Bool) : Bool :=
  match exec i s with
  | .next t => f t
  | _ => false

/-- Nothing of the block moved. -/
def kept (s t : State) : Bool :=
  t.phase == s.phase && t.claimedDrive == s.claimedDrive && t.magicSector == s.magicSector && t.knockIdx == s.knockIdx && t.q == s.q

/-! ### WellFormed refuses what it should, and no more -/

theorem test_wf_drive_too_wide : wellFormed T0 (.isChannelIO (RD 256 0)) = false ∧ wellFormed T0 (.isChannelIO (RD 255 0)) = true := by
  decide +kernel
theorem test_wf_tag_length : wellFormed T0 (.chRd (tagOf 13 []) blkEE) = false ∧ wellFormed T0 (.chRd tagEE blkEE) = true := by decide +kernel
theorem test_wf_access_tag_length : wellFormed T0 (.phIdle ⟨0, 0, .read, tagOf 13 [], blkEE⟩) = false := by decide +kernel
theorem test_wf_forward_tag_placement :
    wellFormed T0 (.chFwd .inTag 513 tagEE blkEE) = false ∧ wellFormed T0 (.chFwd .inTag 512 tagEE blkEE) = true := by decide +kernel
theorem test_wf_forward_block_placement :
    wellFormed T0 (.chFwd .inBlk 501 tagEE blkEE) = false ∧ wellFormed T0 (.chFwd .inBlk 500 tagEE blkEE) = true := by decide +kernel
theorem test_wf_read_frame_payload :
    wellFormed T0 (.frameRd 0 (fill 501) tagEE blkEE) = false ∧ wellFormed T0 (.frameRd 0 (fill 500) tagEE blkEE) = true := by
  decide +kernel

/-! ### Decoding: the keys of R91 bit by bit (bit 32 the direction, bits 31..0 the address), and the byte layouts -/

/-- What an access decodes to, without its buffers. -/
def keyOf : Option Instr → Option (DriveId × Addr × Dir)
  | some (.isChannelIO a) => some (a.drive, a.addr, a.dir)
  | _ => none

/-- `0_00000046`: a read at sector 70, `KNOCK[1]` (KN.HIT from `ki = 1`). -/
theorem test_key_knock_read : keyOf (decodeTableWord 40 0b0_0000_0000_0000_0000_0000_0000_0100_0110) = some (0, 70, .read) := by
  decide +kernel
/-- `0_00000049`: a read at sector 73, `KNOCK[4]` (KN.DONE). -/
theorem test_key_knock_done : keyOf (decodeTableWord 40 0b0_0000_0000_0000_0000_0000_0000_0100_1001) = some (0, 73, .read) := by
  decide +kernel
/-- `1_00012345`: a write at sector 0x00012345 (P1 step 6, PH.CLAIM.ACCEPT). -/
theorem test_key_claim_write : keyOf (decodeTableWord 40 0b1_0000_0000_0000_0001_0010_0011_0100_0101) = some (0, 0x00012345, .write) := by
  decide +kernel
/-- `1_FFFFFFFF`: a write at the sentinel (SENT.WR). -/
theorem test_key_sentinel_write : keyOf (decodeTableWord 40 0b1_1111_1111_1111_1111_1111_1111_1111_1111) = some (0, 0xFFFFFFFF, .write) := by
  decide +kernel
/-- A key has 33 bits: bit 33 set is no access. -/
theorem test_key_too_wide : decode T0 (.access 0 (2 ^ 33) [] []) = .error .keyTooWide := by decide +kernel
theorem test_decode_drive_too_wide : decode T0 (.access 256 0 [] []) = .error .driveTooWide := by decide +kernel
theorem test_decode_tag_length :
    decode T0 (.access 0 0 (List.replicate 11 0) []) = .error .tagLength ∧
    decode T0 (.access 0 0 (List.replicate 13 0) []) = .error .tagLength := by decide +kernel
theorem test_decode_block_length : decode T0 (.access 0 0 (List.replicate 12 0) (List.replicate 511 0)) = .error .blockLength := by
  decide +kernel
theorem test_decode_queue_port :
    decode T0 (.push [1, 2]) = .ok (.qPush (seqOf [1, 2])) ∧ decode T0 (.pop 65535) = .ok (.qPop 0xFFFF) ∧
    decode T0 (.pop 65536) = .error .maxLenTooWide ∧ decode T0 .available = .ok .qAvail ∧ decode T0 .reset = .ok .reset := by
  decide +kernel
theorem test_decode_push_too_long : decode T0 (.push (List.replicate 65536 0)) = .error .batchTooLong := by
  rw [decode, dif_neg (by rw [List.length_replicate]; decide)]
/-- `K` of `WR d, SENTINEL` is `1_FFFFFFFF` (opcode_table.json, SENT.WR). -/
theorem test_encode_key : (match encode (.sentWr (WR 7 sentinel [] [])) with | some (.access 7 k _ _) => k == 0x1FFFFFFFF | _ => false) = true := by
  decide +kernel
/-- A header is no operation the environment presents. -/
theorem test_header_word_is_no_key : decodeTableWord 96 0 = none := by decide +kernel

/-! ### The Header Codec -/

/-- V-HC-3. -/
theorem test_hdr_enc_2000 : run (.hdrEnc 2000) act2 (fun t => t.result == .header (hdr [0xB1, 0xB2, 0xB3, 0xB4, 0, 0, 0x07, 0xD0, 0, 0, 0, 0])) = true := by
  decide +kernel
/-- V-HC-4. -/
theorem test_hdr_enc_65535 : run (.hdrEnc 65535) act2 (fun t => t.result == .header (hdr [0xB1, 0xB2, 0xB3, 0xB4, 0, 0, 0xFF, 0xFF, 0, 0, 0, 0])) = true := by
  decide +kernel
/-- V-HC-6. -/
theorem test_hdr_dec_reserved :
    run (.hdrDec (hdr [0xA1, 0xA2, 0xA3, 0xA4, 0xFF, 0xFF, 0x01, 0xF4, 0xFF, 0xFF, 0xFF, 0xFF])) act2 (fun t => t.result == .decoded true 500) = true := by
  decide +kernel
/-- V-HC-7: one marker byte wrong, the length all the same. -/
theorem test_hdr_dec_wrong_marker :
    run (.hdrDec (hdr [0xA1, 0xA2, 0xA3, 0xA5, 0, 0, 0, 5, 0, 0, 0, 0])) act2 (fun t => t.result == .decoded false 5) = true := by decide +kernel

/-! ### The layouts -/

/-- R96, V-HS-4: the last byte of the block counts. -/
theorem test_blk_magic :
    run (.blkMagic (blockOf (magicPattern T0))) act2 (fun t => t.result == .matched true && t.diag == 0) = true ∧
    run (.blkMagic (blockOf ((magicPattern T0).take 511 ++ [0xA5]))) act2 (fun t => t.result == .matched false && t.diag == 4) = true := by
  decide +kernel
/-- V-HS-5: the layout of the confirming reply. -/
theorem test_blk_confirm :
    run (.blkConfirm tagEE blkEE) pend2 (fun t =>
      t.result == .buffers (tagOf 12 (rep 0 8)) (blockOf [0xB1, 0xB2, 0xB3, 0xB4, 0x00, 0x01, 0x23, 0x45])) = true := by decide +kernel
/-- V-KN-1: the announcement; a 13th tag byte keeps its value (R98). -/
theorem test_tag_announce :
    run (.tagAnnounce (tagOf 13 []) blkEE) pend2 (fun t => t.result == .buffers (tagOf 13 (rep 0 0)) blkEE) = true := by decide +kernel
/-- V-CH-1: the layout of a read frame. -/
theorem test_frame_rd :
    run (.frameRd 5 (seqOf [0x48, 0x45, 0x4C, 0x4C, 0x4F]) tagEE blkEE) act2 (fun t =>
      t.result == .buffers tagEE (blockOf (rep 0 5 ++ [0x48, 0x45, 0x4C, 0x4C, 0x4F]))) = true := by decide +kernel
/-- V-CH-4. -/
theorem test_frame_wr_tag :
    run (.frameWrTag (tagOf 12 (req 0 3)) (blockOf [0x0A, 0x0B, 0x0C, 0x0D])) act2 (fun t =>
      t.result == .frame (some (seqOf [0x0A, 0x0B, 0x0C]))) = true := by decide +kernel
/-- V-CH-5; with a request header in the tag it is no frame of this placement (R101). -/
theorem test_frame_wr_blk :
    run (.frameWrBlk tagEE (blockOf (req 0 1 ++ [0x77]))) act2 (fun t => t.result == .frame (some (seqOf [0x77]))) = true ∧
    run (.frameWrBlk (tagOf 12 (req 0 1)) (blockOf (req 0 1 ++ [0x77]))) act2 (fun t => t.result == .frame none) = true := by decide +kernel

/-! ### The Byte Queue and the transport -/

/-- V-Q-4's second push: the batch goes behind what is queued. -/
theorem test_push_appends :
    run (.qPush (seqOf [3])) (at0 .idle 0 0 0 (seqOf [1, 2])) (fun t => t.q == seqOf [1, 2, 3] && t.diag == 0 && t.result == .none) = true := by
  decide +kernel
/-- V-Q-9: the second push at `FIFO_CAP = 1` is dropped whole. -/
theorem test_push_overflow :
    run (.qPush (seqOf [2])) { act2 with cfg := T0one, q := seqOf [1] } (fun t => t.q == seqOf [1] && t.diag == 32) = true := by decide +kernel
/-- V-Q-1. -/
theorem test_pop_oldest :
    run (.qPop 2) (at0 .idle 0 0 0 (seqOf [1, 2, 3, 4, 5])) (fun t => t.result == .popped (seqOf [1, 2]) && t.q == seqOf [3, 4, 5]) = true := by
  decide +kernel
/-- V-Q-2: more asked for than queued. -/
theorem test_pop_short :
    run (.qPop 10) (at0 .idle 0 0 0 (seqOf [3, 4, 5])) (fun t => t.result == .popped (seqOf [3, 4, 5]) && t.q == none0 && t.diag == 0) = true := by
  decide +kernel
/-- R206's example. -/
theorem test_avail : run .qAvail (at0 .idle 0 0 0 (seqOf [3, 4, 5])) (fun t => t.result == .count 3 && t.q == seqOf [3, 4, 5]) = true := by
  decide +kernel
/-- V-XP-2 at `len q = 499`, and with more queued than asked for: `avail` is the length before the pop. -/
theorem test_xp_rd :
    run (.xpRd 500) (at0 .idle 0 0 0 (fill 499)) (fun t => t.result == .transport 499 (fill 499) && t.q == none0) = true ∧
    run (.xpRd 2) (at0 .idle 0 0 0 (seqOf [1, 2, 3])) (fun t => t.result == .transport 3 (seqOf [1, 2]) && t.q == seqOf [3]) = true := by
  decide +kernel
/-- R218; in EXTERNAL mode the queue is not touched (R221). -/
theorem test_xp_wr :
    run (.xpWr (seqOf [7])) act2 (fun t => t.q == seqOf [7] && t.xp == []) = true ∧
    run (.xpWr (seqOf [7])) { act2 with cfg := T0ext } (fun t => t.q == none0 && t.xp == [.wrote (seqOf [7])]) = true := by decide +kernel
/-- R221: an external read logs the call and leaves the queue. -/
theorem test_xp_rd_external :
    run (.xpRd 9) { act2 with cfg := T0ext, q := seqOf [1] } (fun t => t.q == seqOf [1] && t.xp == [.read 9]) = true := by decide +kernel

/-! ### The Channel Handler -/

/-- V-CH-2. -/
theorem test_ch_rd_empty :
    run (.chRd tagEE blkEE) act2 (fun t => t.result == .reply ⟨true, tagEE, blockOf (rep 0 0)⟩ && kept act2 t) = true := by decide +kernel
/-- V-CH-1. -/
theorem test_ch_rd_data :
    run (.chRd tagEE blkEE) { act2 with q := seqOf [0x48, 0x45, 0x4C, 0x4C, 0x4F] } (fun t =>
      t.result == .reply ⟨true, tagEE, blockOf (rep 0 5 ++ [0x48, 0x45, 0x4C, 0x4C, 0x4F])⟩ && t.q == none0) = true := by decide +kernel
/-- V-CH-9: 513 is clamped, 512 is not. -/
theorem test_ch_wr_tag_clamp :
    run (.chWrTag (tagOf 12 (req 2 0)) blkEE) act2 (fun t => t.diag == 0 && t.q.bytes.length == 512) = true ∧
    run (.chWrTag (tagOf 12 (req 2 1)) blkEE) act2 (fun t => t.diag == 16 && t.q.bytes.length == 512) = true := by decide +kernel
/-- V-CH-5 with a reply header left in the tag. -/
theorem test_ch_wr_blk :
    run (.chWrBlk (tagOf 12 (rep 0 0)) (blockOf (req 0 1 ++ [0x77]))) act2 (fun t =>
      t.result == .reply ⟨true, tagOf 12 (rep 0 0), blockOf (req 0 1 ++ [0x77])⟩ && t.q == seqOf [0x77] && t.diag == 0) = true := by
  decide +kernel
/-- V-CH-12: clamp and overflow together. -/
theorem test_ch_wr_blk_clamp_and_overflow :
    run (.chWrBlk tagEE (blockOf (req 0xFF 0xFF))) { act2 with q := fill 1600 } (fun t => t.diag == 48 && t.q.bytes.length == 1600) = true := by
  decide +kernel
/-- V-CH-7. -/
theorem test_ch_wr_reject :
    run (.chWrReject (tagOf 12 (List.replicate 12 0)) (blockOf (List.replicate 512 0))) act2 (fun t =>
      t.result == .reply ⟨false, tagOf 12 (List.replicate 12 0), blockOf (List.replicate 512 0)⟩ && t.diag == 8 && kept act2 t) = true := by
  decide +kernel
/-- R188's example: block placement at `0xFFFF`; tag placement at 512. -/
theorem test_ch_clamp :
    run (.chClamp 0xFFFF .inBlk) act2 (fun t => t.result == .count 500 && t.diag == 16) = true ∧
    run (.chClamp 512 .inTag) act2 (fun t => t.result == .count 512 && t.diag == 0) = true := by decide +kernel
/-- R189: the payload starts at 0 or at 12. -/
theorem test_ch_fwd :
    run (.chFwd .inTag 2 tagEE (blockOf [0x31, 0x32, 0x33])) act2 (fun t => t.q == seqOf [0x31, 0x32]) = true ∧
    run (.chFwd .inBlk 1 tagEE (blockOf (req 0 9 ++ [0x77, 0x78]))) act2 (fun t => t.q == seqOf [0x77]) = true := by decide +kernel

/-! ### The access classes -/

/-- V-RS-2: the sentinel read of a handshake: only `phase` and the queue move. -/
theorem test_sent_rd :
    run (.sentRd (RD 2 sentinel)) (at0 .sectorPending 2 magic 3 (seqOf [0xAA])) (fun t =>
      t.result == .reply ⟨true, tagEE, blockOf (rep 0 1 ++ [0xAA])⟩ && kept (at0 .idle 2 magic 3 none0) t) = true := by decide +kernel
/-- V-SN-4: Active stays Active. -/
theorem test_sent_rd_active :
    run (.sentRd (RD 6 sentinel)) act2 (fun t => t.result == .reply ⟨true, tagEE, blockOf (rep 0 0)⟩ && kept act2 t) = true := by decide +kernel
/-- V-SN-2. -/
theorem test_sent_wr :
    run (.sentWr (WR 7 sentinel [] (req 0 3 ++ [1, 2, 3]))) (at0 .claimedDrive 1 0 0 none0) (fun t =>
      t.diag == 0 && kept (at0 .idle 1 0 0 (seqOf [1, 2, 3])) t) = true := by decide +kernel
/-- V-SN-5: a refused sentinel write is handled all the same. -/
theorem test_sent_wr_refused :
    run (.sentWr (WR 2 sentinel (List.replicate 12 0) (List.replicate 512 0))) act2 (fun t =>
      t.result == .reply ⟨true, tagOf 12 (List.replicate 12 0), blockOf (List.replicate 512 0)⟩ && t.diag == 8 && kept act2 t) = true := by
  decide +kernel
/-- V-KN-1, second access. -/
theorem test_kn_hit : run (.knHit (RD 2 70)) (at0 .idle 0 0 1 none0) (fun t => kept (at0 .idle 0 0 2 none0) t) = true := by decide +kernel
/-- V-KN-4, third access: address 0 where 85 was expected. -/
theorem test_kn_miss : run (.knMiss (RD 2 0)) (at0 .idle 0 0 2 none0) (fun t => kept (at0 .idle 0 0 0 none0) t) = true := by decide +kernel
/-- R140's example. -/
theorem test_kn_done :
    run (.knDone (RD 2 73)) (at0 .active 5 9 4 none0) (fun t => t.result == .buffers (tagOf 12 (rep 0 0)) blkEE && kept claimed2 t) = true := by
  decide +kernel
/-- S1. -/
theorem test_ph_idle :
    run (.phIdle (WR 2 500 (req 0 5) (magicPattern T0))) State.reset (fun t =>
      t.result == .reply ⟨false, tagOf 12 (req 0 5), blockOf (magicPattern T0)⟩ && t.diag == 0 && kept State.reset t) = true := by decide +kernel
/-- V-HS-1. -/
theorem test_ph_claim_accept :
    run (.phClaimAccept (WR 2 magic [] (magicPattern T0))) claimed2 (fun t =>
      t.result == .reply ⟨true, tagEE, blockOf (magicPattern T0)⟩ && t.diag == 0 && kept pend2 t) = true := by decide +kernel
/-- V-HS-4. -/
theorem test_ph_claim_accept_mismatch :
    run (.phClaimAccept (WR 2 300 [] ((magicPattern T0).take 511 ++ [0xA5]))) claimed2 (fun t =>
      t.diag == 4 && kept (at0 .sectorPending 2 300 0 none0) t) = true := by decide +kernel
/-- V-HS-3: wrong drive; a read. -/
theorem test_ph_claim_pass :
    run (.phClaimPass (WR 3 9 [] (magicPattern T0))) claimed2 (fun t => t.diag == 0 && kept claimed2 t) = true ∧
    run (.phClaimPass (RD 2 9)) claimed2 (fun t => t.result == .reply ⟨false, tagEE, blkEE⟩ && kept claimed2 t) = true := by decide +kernel
/-- V-HS-5. -/
theorem test_ph_pend_confirm :
    run (.phPendConfirm (RD 2 magic)) pend2 (fun t =>
      t.result == .reply ⟨true, tagOf 12 (rep 0 8), blockOf [0xB1, 0xB2, 0xB3, 0xB4, 0x00, 0x01, 0x23, 0x45]⟩ && kept act2 t) = true := by
  decide +kernel
/-- V-HS-7, its three misses. -/
theorem test_ph_pend_miss :
    [WR 2 magic [] [], RD 3 magic, RD 2 0x12344].all (fun a => run (.phPendMiss a) pend2 (fun t =>
      t.result == .reply ⟨false, a.tag, a.blk⟩ && t.diag == 1 && kept pend2 t)) = true := by decide +kernel
/-- V-CH-1 as an access. -/
theorem test_ph_act_rd :
    run (.phActRd (RD 2 magic)) { act2 with q := seqOf [0x48] } (fun t =>
      t.result == .reply ⟨true, tagEE, blockOf (rep 0 1 ++ [0x48])⟩ && kept act2 t) = true := by decide +kernel
/-- V-CH-6: both headers valid, the tag wins. -/
theorem test_ph_act_wr :
    run (.phActWr (WR 2 magic (req 0 2) (req 0 3 ++ [9, 8, 7]))) act2 (fun t => t.diag == 0 && t.q == seqOf [0xA1, 0xA2]) = true := by
  decide +kernel
/-- V-HS-8. -/
theorem test_ph_act_conflict :
    run (.phActConflict (RD 3 magic)) act2 (fun t => t.result == .reply ⟨false, tagEE, blkEE⟩ && t.diag == 2 && kept act2 t) = true := by
  decide +kernel
/-- V-HS-8: another address, another drive. -/
theorem test_ph_act_pass :
    [WR 2 0x12346 (req 0 2) [], RD 3 7].all (fun a => run (.phActPass a) act2 (fun t =>
      t.result == .reply ⟨false, a.tag, a.blk⟩ && t.diag == 0 && kept act2 t)) = true := by decide +kernel
/-- V-HS-9: a knock completed by a write, which is then the magic write. -/
theorem test_access_knock_by_write :
    run (.isChannelIO (WR 2 73 [] (List.replicate 512 0))) (at0 .idle 0 0 4 none0) (fun t =>
      t.result == .reply ⟨true, tagOf 12 (rep 0 0), blockOf (List.replicate 512 0)⟩ && t.diag == 4 &&
      kept (at0 .sectorPending 2 73 0 none0) t) = true := by decide +kernel
/-- V-HS-6: sector 0 is `KNOCK[0]` as well. -/
theorem test_access_confirm_at_knock :
    run (.isChannelIO (RD 2 0)) (at0 .sectorPending 2 0 0 none0) (fun t =>
      t.result == .reply ⟨true, tagOf 12 (rep 0 8), blockOf [0xB1, 0xB2, 0xB3, 0xB4, 0, 0, 0, 0]⟩ && kept (at0 .active 2 0 1 none0) t) = true := by
  decide +kernel
/-- V-RS-1. -/
theorem test_reset : run .reset (at0 .active 2 magic 3 (fill 700)) (fun t => kept State.reset t && t.diag == 0 && t.result == .none) = true := by
  decide +kernel

/-! ### The step -/

/-- The first operation after reset: the write at the sentinel of the table's key, with zero buffers (R187, R132). -/
theorem test_step_runs_a_word :
    (match step (State.reset.withFetchWord 40 0x1FFFFFFFF) with
      | .next t => t.diag == 8 && (match t.result with | .reply r => r.handled | _ => false)
      | _ => false) = true := by decide +kernel
theorem test_step_refuses_bad_shape :
    (match step (State.reset.setPending [.access 256 0 [] []]) with | .refused (.badRequest .driveTooWide) => true | _ => false) = true := by
  decide +kernel

/-! ### Witnesses: states and operands that meet the hypotheses of the statements -/

/-- A tag, a block with a request header of a length, and buffers without. -/
abbrev tagReq (hi lo : Byte) : Tag := tagOf 12 (req hi lo)
abbrev blkReq (hi lo : Byte) : Block := blockOf (req hi lo)
/-- A state with an external transport. -/
def ext : State := { act2 with cfg := T0ext }

theorem witness_ReplyHeaderIsNoRequest : (hdr (rep 1 2)).bytes.take 4 = act2.cfg.replyMarker.bytes := by decide +kernel
/-- Two headers that differ in every reserved byte; a valid header with reserved bytes set. -/
theorem witness_ReservedHeaderBytesIgnored :
    (hdr (req 1 2)).bytes.take 4 = (hdr [0xA1, 0xA2, 0xA3, 0xA4, 9, 9, 1, 2, 9, 9, 9, 9]).bytes.take 4 ∧
    (hdr [0xA1, 0xA2, 0xA3, 0xA4, 9, 9, 1, 2, 9, 9, 9, 9]).bytes = act2.cfg.reqMarker.bytes ++ [9, 9] ++ be16 0x0102 ++ [9, 9, 9, 9] := by
  decide +kernel
theorem witness_MagicBlockMatch :
    isMagicBlock T0 (blockOf (magicPattern T0)) = true ∧ isMagicBlock T0 (blockOf ((magicPattern T0).take 511)) = false := by decide +kernel
theorem witness_ReadFrameLayout : (fill 500).bytes.length ≤ 500 ∧ none0.bytes.length ≤ 500 := by decide +kernel
theorem witness_WriteFrameInTagPayload :
    (hdrDecode T0 (tagReq 2 0).header).1 = true ∧ (hdrDecode T0 tagEE.header).1 = false := by decide +kernel
theorem witness_WriteFrameInBlockPayload :
    (hdrDecode T0 tagEE.header).1 = false ∧ (hdrDecode T0 (blkReq 1 0xF4).header).1 = true ∧ (hdrDecode T0 (tagReq 0 1).header).1 = true ∧
    (hdrDecode T0 blkEE.header).1 = false := by decide +kernel
/-- A batch that exactly fills the queue, and one byte more (V-Q-5). -/
theorem witness_PushAppendsOrDropsWhole :
    (fill 1990).bytes.length + (fill 10).bytes.length ≤ T0.fifoCap.toNat ∧
    T0.fifoCap.toNat < (fill 1990).bytes.length + (fill 11).bytes.length := by decide +kernel
theorem witness_AvailableCountsTheQueue : (fill 2000).bytes.length ≤ T0.fifoCap.toNat := by decide +kernel
theorem witness_QueueKeepsFifoOrder :
    ∀ i ∈ [Instr.qPush (seqOf [1, 2]), .qPop 1, .qAvail, .qPop 9], isQueueOp i = true := by decide +kernel
theorem witness_LoopbackReadDrains : act2.cfg.transport = .loopback := by decide
theorem witness_ExternalReadLeavesTheQueue : ext.cfg.transport = .external := by decide
/-- The three cases of a transport write. -/
theorem witness_TransportWriteForwards :
    (act2.cfg.transport = .loopback ∧ act2.q.bytes.length + (fill 2000).bytes.length ≤ act2.cfg.fifoCap.toNat) ∧
    (act2.cfg.transport = .loopback ∧ act2.cfg.fifoCap.toNat < act2.q.bytes.length + (fill 2001).bytes.length) ∧
    ext.cfg.transport = .external := by decide +kernel
theorem witness_ChannelReadFramesTheQueue : act2.cfg.transport = .loopback := by decide
theorem witness_ChannelReadFramesExternalBytes : ext.cfg.transport = .external := by decide
/-- Lengths 512 and 513: at the capacity and past it. -/
theorem witness_WriteWithTagHeaderForwards :
    hdrDecode act2.cfg (tagReq 2 0).header = (true, 512) ∧ hdrDecode act2.cfg (tagReq 2 1).header = (true, 513) := by decide +kernel
/-- Lengths 500 and 501. -/
theorem witness_WriteWithBlockHeaderForwards :
    (hdrDecode act2.cfg tagEE.header).1 = false ∧ hdrDecode act2.cfg (blkReq 1 0xF4).header = (true, 500) ∧
    hdrDecode act2.cfg (blkReq 1 0xF5).header = (true, 501) := by decide +kernel
theorem witness_WriteWithoutHeaderRejected :
    (hdrDecode act2.cfg tagEE.header).1 = false ∧ (hdrDecode act2.cfg blkEE.header).1 = false := by decide +kernel
/-- Each of the three rows is another than the one that runs, on some buffers. -/
theorem witness_WritePathsNeverOverlap :
    Instr.chWrBlk (tagReq 0 1) blkEE ≠ channelRow T0 .write (tagReq 0 1) blkEE ∧
    Instr.chWrReject tagEE (blkReq 0 1) ≠ channelRow T0 .write tagEE (blkReq 0 1) ∧
    Instr.chWrTag tagEE blkEE ≠ channelRow T0 .write tagEE blkEE := by decide +kernel
theorem witness_ForwardSendsTheSlice : (512 : Count).toNat ≤ 512 ∧ (500 : Count).toNat ≤ 500 := by decide
theorem witness_OutOfRangeOperandsRefused : 512 < (513 : Count).toNat ∧ 500 < (501 : Count).toNat ∧ 500 < (fill 501).bytes.length := by
  decide +kernel
/-- A read and a write at the sentinel, in Active and elsewhere. -/
theorem witness_SentinelReachesTheChannel :
    (RD 9 sentinel).addr = act2.cfg.sentinel ∧ (RD 9 sentinel).dir = .read ∧ act2.phase = .active ∧
    (WR 9 sentinel [] []).addr = pend2.cfg.sentinel ∧ (WR 9 sentinel [] []).dir = .write ∧ pend2.phase ≠ .active := by decide +kernel
/-- At index 3, the last that a hit can have. -/
theorem witness_KnockHitAdvances :
    (RD 2 74).addr ≠ T0.sentinel ∧ (RD 2 74).addr = T0.knock[(at0 .idle 0 0 3 none0).knockIdx] ∧ (at0 .idle 0 0 3 none0).knockIdx.val ≤ 3 := by
  decide +kernel
theorem witness_KnockMissResets :
    (RD 2 0).addr ≠ T0.sentinel ∧ (RD 2 0).addr ≠ T0.knock[(at0 .idle 0 0 2 none0).knockIdx] := by decide +kernel
theorem witness_KnockDoneClaimsTheDrive :
    (RD 2 73).addr ≠ T0.sentinel ∧ (at0 .active 5 9 4 none0).knockIdx = 4 ∧ (RD 2 73).addr = T0.knock[4] := by decide +kernel
theorem witness_IdlePassesThrough :
    (RD 2 500).addr ≠ T0.sentinel ∧ State.reset.phase = .idle ∧ AccessClass.knDone.holds State.reset (RD 2 500) = false ∧
    (RD 2 500).addr ≠ T0.knock[State.reset.knockIdx] := by decide +kernel
/-- The clause of the expected address, at index 3, the last that completes no knock. -/
theorem witness_IdlePassesThrough_hit :
    (RD 2 74).addr ≠ T0.sentinel ∧ (at0 .idle 0 0 3 none0).phase = .idle ∧ AccessClass.knDone.holds (at0 .idle 0 0 3 none0) (RD 2 74) = false ∧
    (RD 2 74).addr = T0.knock[(at0 .idle 0 0 3 none0).knockIdx] := by decide +kernel
/-- With the pattern, and with one byte of it wrong. -/
theorem witness_ClaimAcceptsAnyWrite :
    (claimOp T0 2 magic).addr ≠ T0.sentinel ∧ claimed2.phase = .claimedDrive ∧ (claimOp T0 2 magic).dir = .write ∧
    (claimOp T0 2 magic).drive = claimed2.claimedDrive ∧
    (∀ i j, i < 128 → j < 4 → (claimOp T0 2 magic).blk.bytes[4 * i + j]? = T0.reqMarker.bytes[j]?) ∧
    (WR 2 magic [] ((magicPattern T0).take 511 ++ [0xA5])).blk.bytes[4 * 127 + 3]? ≠ T0.reqMarker.bytes[3]? := by
  exact ⟨by decide +kernel, rfl, rfl, rfl, (isMagicBlock_iff _ _).1 (by decide +kernel), by decide +kernel⟩
/-- A read on the claimed drive, a write on another; another sector in Active. -/
theorem witness_IneligibleAccessesPassSilently :
    ((RD 2 9).addr ≠ T0.sentinel ∧ claimed2.phase = .claimedDrive ∧ (RD 2 9).dir = .read) ∧
    ((WR 3 9 [] []).addr ≠ T0.sentinel ∧ (WR 3 9 [] []).drive ≠ claimed2.claimedDrive) ∧
    ((RD 3 7).addr ≠ T0.sentinel ∧ act2.phase = .active ∧ (RD 3 7).addr ≠ act2.magicSector) := by decide +kernel
theorem witness_ConfirmingReadActivates :
    (RD 2 magic).addr ≠ T0.sentinel ∧ pend2.phase = .sectorPending ∧ (RD 2 magic).dir = .read ∧ (RD 2 magic).drive = pend2.claimedDrive ∧
    (RD 2 magic).addr = pend2.magicSector := by decide +kernel
/-- The three ways to miss. -/
theorem witness_PendingMismatchReported :
    pend2.phase = .sectorPending ∧ ((WR 2 magic [] []).addr ≠ T0.sentinel ∧ (WR 2 magic [] []).dir = .write) ∧
    ((RD 3 magic).addr ≠ T0.sentinel ∧ (RD 3 magic).drive ≠ pend2.claimedDrive) ∧
    ((RD 2 0x12344).addr ≠ T0.sentinel ∧ (RD 2 0x12344).addr ≠ pend2.magicSector) := by decide +kernel
/-- A read, a write that is handled, a write that is refused. -/
theorem witness_ActiveDelegatesToTheChannel :
    act2.phase = .active ∧ ((RD 2 magic).addr ≠ T0.sentinel ∧ (RD 2 magic).addr = act2.magicSector ∧ (RD 2 magic).drive = act2.claimedDrive ∧
      (RD 2 magic).dir = .read) ∧
    ((WR 2 magic [] []).addr = act2.magicSector ∧ (WR 2 magic [] []).drive = act2.claimedDrive ∧ (WR 2 magic [] []).dir = .write ∧
      (hdrDecode T0 (WR 2 magic [] []).tag.header).1 = false ∧ (hdrDecode T0 (WR 2 magic [] []).blk.header).1 = false) := by decide +kernel
theorem witness_ActiveConflictReported :
    (RD 3 magic).addr ≠ T0.sentinel ∧ act2.phase = .active ∧ (RD 3 magic).addr = act2.magicSector ∧ (RD 3 magic).drive ≠ act2.claimedDrive := by
  decide +kernel
theorem witness_RowsRefuseOtherClasses : AccessClass.phIdle.holds act2 (RD 2 7) = false ∧ AccessClass.sentRd.holds act2 (RD 2 7) = false := by
  decide +kernel
theorem witness_ClassesPartitionAccesses : (RD 2 sentinel).addr = act2.cfg.sentinel ∧ (RD 2 7).addr ≠ act2.cfg.sentinel := by decide +kernel
/-- An access that passes, and one that completes a knock on the way. -/
theorem witness_UnhandledAccessKeepsBuffers :
    (∃ t r, exec (.isChannelIO (RD 2 7)) act2 = .next t ∧ t.result = .reply r ∧ r.handled = false ∧
      AccessClass.knDone.holds act2 (RD 2 7) = false) ∧
    (∃ t r, exec (.isChannelIO (RD 2 73)) (at0 .idle 0 0 4 none0) = .next t ∧ t.result = .reply r ∧ r.handled = false ∧
      AccessClass.knDone.holds (at0 .idle 0 0 4 none0) (RD 2 73) = true) :=
  ⟨⟨_, _, rfl, rfl, by decide +kernel⟩, ⟨_, _, rfl, rfl, by decide +kernel⟩⟩
/-- A write at the sentinel and a read at the magic sector both move the queue. -/
theorem witness_QueueMovesOnlyThroughTheChannel :
    (∃ t, exec (.isChannelIO (WR 7 sentinel (req 0 3) [])) pend2 = .next t ∧ t.q ≠ pend2.q) ∧
    (∃ t, exec (.isChannelIO (RD 2 magic)) { act2 with q := seqOf [1] } = .next t ∧ t.q ≠ seqOf [1]) :=
  ⟨⟨_, rfl, by decide +kernel⟩, ⟨_, rfl, by decide +kernel⟩⟩
theorem witness_OtherDrivesCannotTouchTheChannel :
    (WR 3 magic (req 0 3) []).addr ≠ act2.cfg.sentinel ∧ (WR 3 magic (req 0 3) []).drive ≠ act2.claimedDrive ∧
    AccessClass.knDone.holds act2 (WR 3 magic (req 0 3) []) = false := by decide +kernel
/-- A refused write at the magic sector, with bytes queued. -/
theorem witness_UnhandledAccessHidesTheQueue :
    ∃ t r, exec (.isChannelIO (WR 2 magic [] [])) { act2 with q := seqOf [1] } = .next t ∧ t.result = .reply r ∧ r.handled = false :=
  ⟨_, _, rfl, rfl, by decide +kernel⟩
/-- V-KN-6, from Active. -/
theorem witness_FiveKnocksClaimTheDrive :
    act2.knockIdx = 0 ∧ (RD 1 0).addr = T0.knock[0] ∧ (WR 2 70 [] []).addr = T0.knock[1] ∧ (RD 3 85).addr = T0.knock[2] ∧
    (WR 4 74 [] []).addr = T0.knock[3] ∧ (RD 5 73).addr = T0.knock[4] ∧ (RD 5 73).dir = .read := by decide +kernel
/-- Two write frames, one in each placement, and two reads. -/
theorem witness_LoopbackReturnsWhatWasWritten :
    State.reset.cfg.transport = .loopback ∧ State.reset.q.bytes = [] ∧
    (∀ a ∈ [WR 0 sentinel (req 2 0) [], WR 0 sentinel [] (req 0 9)], a.addr = T0.sentinel ∧ a.dir = .write ∧ (writtenPayload T0 a).isSome = true) ∧
    (∀ a ∈ [RD 0 sentinel, RD 1 sentinel], a.addr = T0.sentinel ∧ a.dir = .read) ∧
    ([WR 0 sentinel (req 2 0) [], WR 0 sentinel [] (req 0 9)].filterMap (writtenPayload T0)).flatten.length ≤ T0.fifoCap.toNat := by
  decide +kernel
/-- The invariant holds in the four phases, with the queue at its capacity, and a step leaves each. -/
theorem witness_StepKeepsInvariant :
    (∃ t, Inv State.reset ∧ step State.reset = .next t) ∧ Inv claimed2 ∧ Inv (at0 .sectorPending 255 0xFFFFFFFE 4 (fill 2000)) ∧
    Inv (at0 .active 2 magic 0 (fill 2000)) := by
  refine ⟨⟨_, ?_, rfl⟩, ?_, ?_, ?_⟩ <;> exact ⟨by decide +kernel, by decide +kernel, by decide +kernel, by decide +kernel⟩
/-- A presented access, and a step that changes the phase: the magic write (T2), the confirming read (T3). -/
def presenting (s : State) (a : Access) : State := s.setPending [accessRequest a]
theorem witness_PhaseChangesOnlyByTransitions :
    (∃ t, step (presenting claimed2 (claimOp T0 2 magic)) = .next t ∧ t.phase ≠ claimed2.phase) ∧
    (∃ t, step (presenting pend2 (RD 2 magic)) = .next t ∧ t.phase ≠ pend2.phase) ∧
    (∃ t, step (presenting pend2 (RD 2 sentinel)) = .next t ∧ t.phase ≠ pend2.phase) ∧
    (∃ t, step (act2.setPending [.reset]) = .next t ∧ t.phase ≠ act2.phase) ∧
    (∃ t, step (presenting (at0 .idle 0 0 4 none0) (RD 2 73)) = .next t ∧ t.phase ≠ .idle) := by
  have h : ∀ s : State, (match step s with | .next t => t.phase != s.phase | _ => false) = true → ∃ t, step s = .next t ∧ t.phase ≠ s.phase := by
    intro s hs
    cases e : step s with
    | next t => rw [e] at hs; exact ⟨t, rfl, by simpa using hs⟩
    | fault f => rw [e] at hs; cases hs
    | refused r => rw [e] at hs; cases hs
  exact ⟨h _ (by decide +kernel), h _ (by decide +kernel), h _ (by decide +kernel), h _ (by decide +kernel), h _ (by decide +kernel)⟩
theorem witness_ClaimAndMagicHaveFewWriters :
    (match step (presenting (at0 .idle 0 0 4 none0) (RD 2 73)) with | .next t => t.claimedDrive != 0 | _ => false) = true ∧
    (match step (presenting claimed2 (claimOp T0 2 magic)) with | .next t => t.magicSector != 0 | _ => false) = true ∧
    (match step (act2.setPending [.reset]) with | .next t => t.magicSector != magic | _ => false) = true := by decide +kernel
theorem witness_NoOperationWritesTheConfiguration : ∃ t, exec (.qPush (seqOf [1])) act2 = .next t := ⟨_, rfl⟩
/-- A request that decodes, one that does not, none. -/
theorem witness_StepRunsTheDecodedOperation :
    (act2.setPending [.pop 3, .reset]).pending = .pop 3 :: [.reset] ∧ decode T0 (.pop 3) = .ok (.qPop 3) ∧
    decode T0 (.pop 65536) = .error .maxLenTooWide ∧ act2.pending = [] := by decide +kernel
theorem witness_EveryDecodedRequestIsAnswered :
    (presenting act2 (RD 2 magic)).pending = accessRequest (RD 2 magic) :: [] ∧
    decode act2.cfg (accessRequest (RD 2 magic)) = .ok (.isChannelIO (RD 2 magic)) := by decide +kernel
/-- At the last drive id and the last address. -/
theorem witness_DecodeInvertsEncode :
    wellFormed T0 (.sentWr (WR 255 sentinel [] [])) = true ∧
    encode (.sentWr (WR 255 sentinel [] [])) = some (accessRequest (WR 255 sentinel [] [])) := by decide +kernel

end Sys2Proof.Tests
end

section
/-! The proofs of the statements of 00_scope.md: what the decoder accepts, what a step runs, and that the ports answer every request
they decode. -/

namespace Sys2Proof

/-! ### The shape of a request -/

/-- An access fits its port when its drive id has `DRIVE_W` bits and its tag `TAG_LEN` bytes (R13, R14). -/
theorem Access.fits_iff (c : Config) (a : Access) :
    a.fits c = true ↔ a.drive < 2 ^ c.driveW ∧ a.tag.bytes.length = c.tagLen := by
  simp [Access.fits, driveFits, Tag.fits]

/-- The decoder looks at the width of the key first (R91). -/
theorem decode_access_keyTooWide (c : Config) (drive : Nat) {key : Nat} (tag blk : List Byte) (hk : ¬ key < 2 ^ 33) :
    decode c (.access drive key tag blk) = .error .keyTooWide := by
  simp only [decode]
  exact if_neg hk

/-- The tag's lower bound of 12 bytes, which `Tag` asks for, follows from `TAG_LEN` (R13). -/
theorem decode_access_isOk_iff (c : Config) (drive key : Nat) (tag blk : List Byte) :
    (∃ i, decode c (.access drive key tag blk) = .ok i) ↔
      key < 2 ^ 33 ∧ drive < 2 ^ c.driveW ∧ tag.length = c.tagLen ∧ blk.length = 512 := by
  constructor
  · rintro ⟨i, h⟩
    have hk : key < 2 ^ 33 := by
      by_contra hk
      rw [decode_access_keyTooWide c drive tag blk hk] at h
      contradiction
    obtain ⟨a, -, hfits, rfl, -, -, rfl, rfl⟩ := decode_access_ok h
    obtain ⟨hdrive, htag⟩ := (Access.fits_iff c a).1 hfits
    exact ⟨hk, hdrive, htag, block_length a.blk⟩
  · rintro ⟨hk, hdrive, htag, hblk⟩
    have hroom : 12 ≤ tag.length := htag ▸ c.tag_room
    exact ⟨_, decode_access_of_shape hk (decide_eq_true hdrive) hroom htag hblk⟩

theorem decode_push_isOk_iff (c : Config) (bytes : List Byte) :
    (∃ i, decode c (.push bytes) = .ok i) ↔ bytes.length ≤ 65535 := by
  rw [decode_push]
  split <;> simp_all

theorem decode_pop_isOk_iff (c : Config) (n : Nat) : (∃ i, decode c (.pop n) = .ok i) ↔ n ≤ 65535 := by
  rw [decode_pop, ← Nat.lt_succ_iff]
  split <;> simp_all

end Sys2Proof

namespace Sys2Proof.Machine

/-! ### What a step runs -/

theorem step_of_pending_nil {s : State} (hp : s.pending = []) : step s = .next s := by
  simp [step, hp]

theorem step_of_decode_ok {s : State} {r : Request} {rest : List Request} {i : Instr} (hp : s.pending = r :: rest)
    (hd : decode s.cfg r = .ok i) : step s = exec i (s.setPending rest) := by
  simp [step, hp, hd]

theorem step_of_decode_error {s : State} {r : Request} {rest : List Request} {e : DecodeError} (hp : s.pending = r :: rest)
    (hd : decode s.cfg r = .error e) : step s = .refused (.badRequest e) := by
  simp [step, hp, hd]

/-! ### What the ports answer -/

theorem TransportFrame.sameSetting {s t : State} (h : TransportFrame s t) : SameSetting s t := ⟨h.cfg, h.pending⟩

/-- An access answers a reply and writes neither the configuration nor what is still to be presented (R21, R77). -/
theorem exec_isChannelIO_replies (a : Access) (s : State) :
    ∃ t r, exec (.isChannelIO a) s = .next t ∧ t.result = .reply r ∧ SameSetting s t :=
  ⟨_, _, execIsChannelIO_eq a s, rfl, accessSteps_setting a s.clearOutputs⟩

/-- Whatever a request decodes to is answered in every state, under any configuration, and leaves the setting (R21, R77). -/
theorem exec_decoded_answers {c : Config} {r : Request} {i : Instr} (hd : decode c r = .ok i) (s : State) :
    ∃ t, exec i s = .next t ∧ SameSetting s t := by
  obtain ⟨a, rfl, -⟩ | ⟨batch, rfl⟩ | ⟨n, rfl⟩ | rfl | rfl := decode_cases hd
  · obtain ⟨t, -, he, -, hset⟩ := exec_isChannelIO_replies a s
    exact ⟨t, he, hset⟩
  · exact ⟨_, rfl, (push_frame batch s.clearOutputs).sameSetting⟩
  · exact ⟨_, rfl, rfl, rfl⟩
  · exact ⟨_, rfl, rfl, rfl⟩
  · exact ⟨_, rfl, rfl, rfl⟩

/-! ### Operands out of range -/

theorem exec_chFwd_refused {p : Placement} {len : Count} (h : (capacity p).toNat < len.toNat) (tag : Tag) (blk : Block)
    (s : State) : exec (.chFwd p len tag blk) s = .refused .payloadOutsideBlock :=
  if_neg (Nat.not_le.2 h)

theorem exec_frameRd_refused {bytes : ByteSeq} (h : framePayload < bytes.bytes.length) (avail : Count) (tag : Tag) (blk : Block)
    (s : State) : exec (.frameRd avail bytes tag blk) s = .refused .payloadTooLong :=
  if_neg (Nat.not_le.2 h)

/-! ### The statements -/

/-- Settles O57: the step is `exec` of the decoded operation with the request taken off, and the ports answer all of those. -/
theorem everyDecodedRequestIsAnswered : Obligations.EveryDecodedRequestIsAnswered := by
  intro s r rest i hp hd
  obtain ⟨t, he, hcfg, hpending⟩ := exec_decoded_answers hd (s.setPending rest)
  exact ⟨t, (step_of_decode_ok hp hd).trans he, hpending, hcfg⟩

/-- Settles O58, port by port. -/
theorem decoderRefusesBadShapesOnly : Obligations.DecoderRefusesBadShapesOnly :=
  ⟨decode_access_isOk_iff, decode_push_isOk_iff, decode_pop_isOk_iff, fun _ => ⟨rfl, rfl⟩⟩

/-- Settles O28: 512 and 500 are the capacities of the two placements, and 500 the most a read frame holds. -/
theorem outOfRangeOperandsRefused : Obligations.OutOfRangeOperandsRefused :=
  ⟨fun _ tag blk s =>
    ⟨fun h => exec_chFwd_refused (p := .inTag) h tag blk s, fun h => exec_chFwd_refused (p := .inBlk) h tag blk s⟩,
    fun avail _ tag blk s h => exec_frameRd_refused h avail tag blk s⟩

/-- Settles O43. -/
theorem accessAlwaysReplies : Obligations.AccessAlwaysReplies := exec_isChannelIO_replies

/-- Settles O56: the three things `step` can find at the port. -/
theorem stepRunsTheDecodedOperation : Obligations.StepRunsTheDecodedOperation := fun _ =>
  ⟨fun _ _ _ => step_of_decode_ok, fun _ _ _ => step_of_decode_error, step_of_pending_nil⟩

end Sys2Proof.Machine
end

section
/-! The proofs of the statements of 10_state.md: the invariant of session and queue, who writes the claim and the magic sector, and that an
access the block does not handle shows nothing of the queue. -/

namespace Sys2Proof.Machine

/-! ### What an access and a decoded operation can be -/

/-- An access is one at the sentinel, or completes the knock before its dispatch, or moves only the counter before it (R130, R142). -/
theorem accessSteps_cases (a : Access) (s : State) :
    (a.addr = s.cfg.sentinel ∧ accessSteps a s = sentinelAccess a s) ∨
    (a.addr ≠ s.cfg.sentinel ∧ AccessClass.knDone.holds s a = true ∧
      accessSteps a s = phaseDispatch { a with tag := a.tag.putHeader s.cfg 0 } (knockDone a.drive s)) ∨
    (a.addr ≠ s.cfg.sentinel ∧ AccessClass.knDone.holds s a = false ∧
      ∃ i, accessSteps a s = phaseDispatch a (s.setKnock i)) := by
  by_cases hs : a.addr = s.cfg.sentinel
  · exact .inl ⟨hs, accessSteps_sentinel hs⟩
  · refine .inr ?_
    rw [accessSteps_ordinary hs]
    obtain ⟨hk, e⟩ | ⟨hk, i, e⟩ := knockStep_done_or_not hs
    · exact .inl ⟨hs, hk, by rw [e]⟩
    · exact .inr ⟨hs, hk, i, by rw [e]⟩

/-! Phase dispatch, one phase at a time (R144, R146, R148, R150 to R157). -/

theorem phaseDispatch_of_idle {a : Access} {s : State} (hp : s.phase = .idle) : phaseDispatch a s = passThrough a s := by
  simp [phaseDispatch, hp]

theorem phaseDispatch_of_claimedDrive {a : Access} {s : State} (hp : s.phase = .claimedDrive) :
    phaseDispatch a s = if a.dir = .write ∧ a.drive = s.claimedDrive then acceptClaim a s else passThrough a s := by
  simp [phaseDispatch, hp]

theorem phaseDispatch_of_sectorPending {a : Access} {s : State} (hp : s.phase = .sectorPending) :
    phaseDispatch a s =
      if a.dir = .read ∧ a.drive = s.claimedDrive ∧ a.addr = s.magicSector then confirmClaim a s
      else passThrough a (s.raise .protoMismatch) := by
  simp [phaseDispatch, hp]

theorem phaseDispatch_of_active {a : Access} {s : State} (hp : s.phase = .active) :
    phaseDispatch a s =
      if a.addr = s.magicSector then
        if a.drive = s.claimedDrive then channelHandle a.dir a.tag a.blk s else passThrough a (s.raise .driveConflict)
      else passThrough a s := by
  simp [phaseDispatch, hp]

/-- A request decodes to an access of its port's shape, an operation of the queue port, or a reset (D1). -/
theorem decode_access_queue_or_reset {c : Config} {r : Request} {i : Instr} (h : decode c r = .ok i) :
    (∃ a : Access, i = .isChannelIO a ∧ a.fits c = true) ∨ isQueueOp i = true ∨ i = .reset := by
  obtain h | ⟨b, rfl⟩ | ⟨n, rfl⟩ | rfl | rfl := decode_cases h
  · exact .inl h
  · exact .inr (.inl rfl)
  · exact .inr (.inl rfl)
  · exact .inr (.inl rfl)
  · exact .inr (.inr rfl)

/-! ### What the transport and the queue port leave of the session -/

theorem TransportFrame.sameSession {s t : State} (h : TransportFrame s t) : SameSession s t :=
  ⟨h.phase, h.claimedDrive, h.magicSector⟩

/-- The queue port writes nothing of the session and of the configuration, and keeps the queue within its capacity (R222, R39). -/
theorem exec_queueOp_frame {i : Instr} {s t : State} (hi : isQueueOp i = true) (he : exec i s = .next t) :
    SameSession s t ∧ t.cfg = s.cfg ∧
      (s.q.bytes.length ≤ s.cfg.fifoCap.toNat → t.q.bytes.length ≤ s.cfg.fifoCap.toNat) := by
  obtain ⟨batch, rfl⟩ | ⟨n, rfl⟩ | rfl := isQueueOp_cases hi <;> cases he
  · have hf := push_frame batch s.clearOutputs
    exact ⟨hf.sameSession, hf.cfg, push_bounded (s := s.clearOutputs)⟩
  · refine ⟨⟨rfl, rfl, rfl⟩, rfl, fun hq => ?_⟩
    exact (List.drop_sublist n.toNat s.q.bytes).length_le.trans hq
  · exact ⟨⟨rfl, rfl, rfl⟩, rfl, id⟩

/-! ### The invariant -/

theorem driveFits_zero (c : Config) : driveFits c 0 = true := decide_eq_true (Nat.two_pow_pos _)

/-- In Idle the invariant asks only for the queue and the claimed drive. -/
theorem Inv.of_idle {s : State} (hq : s.q.bytes.length ≤ s.cfg.fifoCap.toNat) (hp : s.phase = .idle)
    (hd : driveFits s.cfg s.claimedDrive = true) : Inv s where
  queue_fits := hq
  magic_zero h := by simp [hp] at h
  magic_ordinary h := by simp [hp] at h
  claimed_fits := hd

/-- The invariant looks at the session, the configuration and the length of the queue only. -/
theorem Inv.of_sameSession {s t : State} (h : Inv s) (hs : SameSession s t) (hc : t.cfg = s.cfg)
    (hq : t.q.bytes.length ≤ s.cfg.fifoCap.toNat) : Inv t := by
  obtain ⟨hphase, hclaimed, hmagic⟩ := hs
  constructor
  · rwa [hc]
  · rw [hphase, hmagic]; exact h.magic_zero
  · rw [hphase, hmagic, hc]; exact h.magic_ordinary
  · rw [hc, hclaimed]; exact h.claimed_fits

theorem Inv.clearOutputs {s : State} (h : Inv s) : Inv s.clearOutputs := h.of_sameSession ⟨rfl, rfl, rfl⟩ rfl h.queue_fits
theorem Inv.setPending {s : State} (h : Inv s) (l : List Request) : Inv (s.setPending l) :=
  h.of_sameSession ⟨rfl, rfl, rfl⟩ rfl h.queue_fits
theorem Inv.setResult {s : State} (h : Inv s) (r : Result) : Inv (s.setResult r) := h.of_sameSession ⟨rfl, rfl, rfl⟩ rfl h.queue_fits
theorem Inv.raise {s : State} (h : Inv s) (d : Diag) : Inv (s.raise d) := h.of_sameSession ⟨rfl, rfl, rfl⟩ rfl h.queue_fits
theorem Inv.setKnock {s : State} (h : Inv s) (i : Fin knockLen) : Inv (s.setKnock i) := h.of_sameSession ⟨rfl, rfl, rfl⟩ rfl h.queue_fits
theorem Inv.setIdle {s : State} (h : Inv s) : Inv (s.setPhase .idle) := .of_idle h.queue_fits rfl h.claimed_fits

theorem channelHandle_inv {s : State} (h : Inv s) (d : Dir) (t : Tag) (b : Block) : Inv (channelHandle d t b s).2 :=
  have hf := channelHandle_frame d t b s
  h.of_sameSession hf.sameSession hf.cfg (channelHandle_bounded h.queue_fits)

theorem sentinelAccess_inv {s : State} (h : Inv s) (a : Access) : Inv (sentinelAccess a s).2 := by
  have hc := channelHandle_inv h a.dir a.tag a.blk
  rw [sentinelAccess_snd]
  split
  · exact hc
  · exact hc.setIdle

/-- A completed knock claims a drive id and leaves the magic sector 0 (R140). -/
theorem knockDone_inv {s : State} (h : Inv s) {d : DriveId} (hd : driveFits s.cfg d = true) : Inv (knockDone d s) where
  queue_fits := h.queue_fits
  magic_zero _ := rfl
  magic_ordinary hp := by simp [knockDone] at hp
  claimed_fits := hd

/-- The accepted write leaves SectorPending with an address that is not the sentinel, dispatch being reached by no other (R146, R112). -/
theorem acceptClaim_inv {s : State} (h : Inv s) {a : Access} (ha : a.addr ≠ s.cfg.sentinel) : Inv (acceptClaim a s).2 where
  queue_fits := by simpa [acceptClaim] using h.queue_fits
  magic_zero hp := by simp [acceptClaim] at hp
  magic_ordinary _ := by simpa [acceptClaim] using ha
  claimed_fits := by simpa [acceptClaim] using h.claimed_fits

/-- The confirming read keeps the magic sector of SectorPending (R152). -/
theorem confirmClaim_inv {s : State} (h : Inv s) (a : Access) (hp : s.phase = .sectorPending) : Inv (confirmClaim a s).2 where
  queue_fits := h.queue_fits
  magic_zero hp := by simp [confirmClaim] at hp
  magic_ordinary _ := h.magic_ordinary (.inl hp)
  claimed_fits := h.claimed_fits

theorem phaseDispatch_inv {s : State} (h : Inv s) {a : Access} (ha : a.addr ≠ s.cfg.sentinel) : Inv (phaseDispatch a s).2 := by
  obtain e | ⟨-, -, -, e⟩ | ⟨hp, -, -, -, e⟩ | ⟨-, e⟩ | ⟨-, -, -, e⟩ | ⟨-, -, -, e⟩ := phaseDispatch_cases a s <;> rw [e]
  · exact h
  · exact acceptClaim_inv h ha
  · exact confirmClaim_inv h a hp
  · exact h.raise _
  · exact channelHandle_inv h _ _ _
  · exact h.raise _

theorem accessSteps_inv {s : State} (h : Inv s) {a : Access} (hd : driveFits s.cfg a.drive = true) : Inv (accessSteps a s).2 := by
  obtain ⟨-, e⟩ | ⟨ha, -, e⟩ | ⟨ha, -, i, e⟩ := accessSteps_cases a s <;> rw [e]
  · exact sentinelAccess_inv h a
  · exact phaseDispatch_inv (knockDone_inv h hd) ha
  · exact phaseDispatch_inv (h.setKnock i) ha

/-- An operation the decoder lets through keeps the invariant: the drive id of an access has been checked (R14). -/
theorem exec_decoded_inv {r : Request} {i : Instr} {s t : State} (h : Inv s) (hd : decode s.cfg r = .ok i)
    (he : exec i s = .next t) : Inv t := by
  obtain ⟨a, rfl, hfits⟩ | hq | rfl := decode_access_queue_or_reset hd
  · cases he
    have hdrive : driveFits s.cfg a.drive = true := decide_eq_true ((Access.fits_iff _ a).1 hfits).1
    exact (accessSteps_inv h.clearOutputs hdrive).setResult _
  · obtain ⟨hs, hc, hbound⟩ := exec_queueOp_frame hq he
    exact h.of_sameSession hs hc (hbound h.queue_fits)
  · cases he
    exact .of_idle (Nat.zero_le _) rfl (driveFits_zero _)

/-! ### Who writes the claimed drive and the magic sector -/

theorem phClaimAccept_holds_iff (a : Access) (s : State) :
    AccessClass.phClaimAccept.holds s a = true ↔
      a.addr ≠ s.cfg.sentinel ∧ s.phase = .claimedDrive ∧ a.dir = .write ∧ a.drive = s.claimedDrive := by
  simp [AccessClass.holds, State.ordinary, and_assoc]

/-- Dispatch claims no drive (R32), and only the accepted write names a magic sector (R33, R146). -/
theorem phaseDispatch_claim (a : Access) (s : State) :
    (phaseDispatch a s).2.claimedDrive = s.claimedDrive ∧
    ((phaseDispatch a s).2.magicSector = s.magicSector ∨
      (s.phase = .claimedDrive ∧ a.dir = .write ∧ a.drive = s.claimedDrive ∧ (phaseDispatch a s).2.magicSector = a.addr)) := by
  obtain e | ⟨hp, hw, hd, e⟩ | ⟨-, -, -, -, e⟩ | ⟨-, e⟩ | ⟨-, -, -, e⟩ | ⟨-, -, -, e⟩ := phaseDispatch_cases a s <;> rw [e]
  · exact ⟨rfl, .inl rfl⟩
  · exact ⟨by simp [acceptClaim], .inr ⟨hp, hw, hd, rfl⟩⟩
  · exact ⟨rfl, .inl rfl⟩
  · exact ⟨rfl, .inl rfl⟩
  · have hf := channelHandle_frame a.dir a.tag a.blk s
    exact ⟨hf.claimedDrive, .inl hf.magicSector⟩
  · exact ⟨rfl, .inl rfl⟩

/-- An access leaves the claim and the magic sector, or completes a knock, or is the accepted write (R163 (g)). -/
theorem accessSteps_claim (a : Access) (s : State) :
    ((accessSteps a s).2.claimedDrive = s.claimedDrive ∧ (accessSteps a s).2.magicSector = s.magicSector) ∨
    (AccessClass.knDone.holds s a = true ∧ (accessSteps a s).2.claimedDrive = a.drive ∧
      ((accessSteps a s).2.magicSector = 0 ∨ (a.dir = .write ∧ (accessSteps a s).2.magicSector = a.addr))) ∨
    (AccessClass.phClaimAccept.holds s a = true ∧ (accessSteps a s).2.claimedDrive = s.claimedDrive ∧
      (accessSteps a s).2.magicSector = a.addr) := by
  obtain ⟨-, e⟩ | ⟨-, hk, e⟩ | ⟨ha, -, i, e⟩ := accessSteps_cases a s <;> rw [e]
  · have hf := channelHandle_frame a.dir a.tag a.blk s
    rw [sentinelAccess_snd]
    split <;> exact .inl ⟨hf.claimedDrive, hf.magicSector⟩
  · obtain ⟨hclaimed, hmagic⟩ := phaseDispatch_claim { a with tag := a.tag.putHeader s.cfg 0 } (knockDone a.drive s)
    exact .inr (.inl ⟨hk, hclaimed, hmagic.imp_right fun ⟨_, hw, _, hm⟩ => ⟨hw, hm⟩⟩)
  · obtain ⟨hclaimed, hmagic | ⟨hp, hw, hd, hmagic⟩⟩ := phaseDispatch_claim a (s.setKnock i)
    · exact .inl ⟨hclaimed, hmagic⟩
    · exact .inr (.inr ⟨(phClaimAccept_holds_iff a s).2 ⟨ha, hp, hw, hd⟩, hclaimed, hmagic⟩)

/-! ### An access under another queue -/

/-- A refused channel write looks at its buffers only, so that it is refused with any queue (R187). -/
theorem channelHandle_setQueue {d : Dir} {t : Tag} {b : Block} {s : State} (h : (channelHandle d t b s).1.handled = false)
    (q' : ByteSeq) :
    channelHandle d t b (s.setQueue q') = ((channelHandle d t b s).1, (channelHandle d t b s).2.setQueue q') := by
  obtain ⟨rfl, htag, hblk⟩ := (channelHandle_refuses d t b s).1 h
  have hnone : locateHeader s.cfg t b = none := by simp [locateHeader, htag, hblk]
  simp only [channelHandle, channelWrite, State.setQueue_cfg, hnone]
  rfl

/-- Knock detection does not look at the queue (R136). -/
theorem knockStep_setQueue (a : Access) (s : State) (q' : ByteSeq) :
    knockStep a (s.setQueue q') = ((knockStep a s).1, (knockStep a s).2.setQueue q') := by
  obtain ⟨h, h4, e⟩ | ⟨h, h4, e⟩ | ⟨h, e⟩ := knockStep_cases a s <;> rw [e]
  · exact (if_pos h).trans (if_pos h4)
  · exact (if_pos h).trans (if_neg h4)
  · exact if_neg h

/-- Of dispatch only the Channel Handler looks at the queue, and it handles whatever shows it (R154, R184). -/
theorem phaseDispatch_setQueue {a : Access} {s : State} (h : (phaseDispatch a s).1.handled = false) (q' : ByteSeq) :
    phaseDispatch a (s.setQueue q') = ((phaseDispatch a s).1, (phaseDispatch a s).2.setQueue q') := by
  cases hp : s.phase with
  | idle => rw [phaseDispatch_of_idle hp, phaseDispatch_of_idle (s := s.setQueue q') hp]; rfl
  | claimedDrive =>
    rw [phaseDispatch_of_claimedDrive hp] at h ⊢
    rw [phaseDispatch_of_claimedDrive (s := s.setQueue q') hp]
    by_cases hw : a.dir = .write ∧ a.drive = s.claimedDrive
    · rw [if_pos hw] at h
      contradiction
    · rw [if_neg hw]
      exact if_neg hw
  | sectorPending =>
    rw [phaseDispatch_of_sectorPending hp] at h ⊢
    rw [phaseDispatch_of_sectorPending (s := s.setQueue q') hp]
    by_cases hr : a.dir = .read ∧ a.drive = s.claimedDrive ∧ a.addr = s.magicSector
    · rw [if_pos hr] at h
      contradiction
    · rw [if_neg hr]
      exact if_neg hr
  | active =>
    rw [phaseDispatch_of_active hp] at h ⊢
    rw [phaseDispatch_of_active (s := s.setQueue q') hp]
    by_cases hm : a.addr = s.magicSector
    · by_cases hd : a.drive = s.claimedDrive
      · rw [if_pos hm, if_pos hd] at h ⊢
        exact ((if_pos hm).trans (if_pos hd)).trans (channelHandle_setQueue h q')
      · rw [if_pos hm, if_neg hd]
        exact (if_pos hm).trans (if_neg hd)
    · rw [if_neg hm]
      exact if_neg hm

/-- An access that is not handled does the same with any other queue, and leaves that queue (R44, R46). -/
theorem accessSteps_setQueue {a : Access} {s : State} (h : (accessSteps a s).1.handled = false) (q' : ByteSeq) :
    accessSteps a (s.setQueue q') = ((accessSteps a s).1, (accessSteps a s).2.setQueue q') := by
  by_cases hs : a.addr = s.cfg.sentinel
  · rw [accessSteps_sentinel hs, sentinelAccess_handled] at h
    contradiction
  · rw [accessSteps_ordinary hs] at h ⊢
    rw [accessSteps_ordinary (s := s.setQueue q') hs, knockStep_setQueue]
    exact phaseDispatch_setQueue h q'

/-! ### The statements -/

/-- Settles O51: reset leaves Idle, with an empty queue and the claim 0. -/
theorem resetMeetsInvariant : Obligations.ResetMeetsInvariant := fun c => .of_idle (Nat.zero_le _) rfl (driveFits_zero c)

/-- Settles O52: a step waits or runs a decoded operation, and those keep the invariant. -/
theorem stepKeepsInvariant : Obligations.StepKeepsInvariant := by
  intro s t h hstep
  obtain ⟨-, rfl⟩ | ⟨r, rest, i, -, hd, he⟩ := step_cases hstep
  · exact h
  · exact exec_decoded_inv (h.setPending rest) hd he

/-- Settles O54: of the operations a step can run, the queue port writes neither, and an access as `accessSteps_claim` says. -/
theorem claimAndMagicHaveFewWriters : Obligations.ClaimAndMagicHaveFewWriters := by
  intro s t hstep hchanged
  obtain ⟨-, rfl⟩ | ⟨r, rest, i, hp, hd, he⟩ := step_cases hstep
  · simp at hchanged
  · refine ⟨r, rest, i, hp, hd, ?_⟩
    obtain ⟨a, rfl, -⟩ | hq | rfl := decode_access_queue_or_reset hd
    · cases he
      have hcases := accessSteps_claim a (s.setPending rest).clearOutputs
      rw [holds_clear, holds_clear] at hcases
      obtain ⟨hclaimed, hmagic⟩ | hwriter := hcases
      · exact absurd hchanged (by simp [hclaimed, hmagic])
      · exact .inr ⟨a, rfl, hwriter⟩
    · obtain ⟨⟨-, hclaimed, hmagic⟩, -⟩ := exec_queueOp_frame hq he
      exact absurd hchanged (by simp [hclaimed, hmagic])
    · cases he
      exact .inl ⟨rfl, rfl, rfl⟩

/-- Settles O47: under the other queue the access ends in the same state, with that queue. -/
theorem unhandledAccessHidesTheQueue : Obligations.UnhandledAccessHidesTheQueue := by
  intro a s t r q' he hr hh
  cases he
  obtain rfl : (accessSteps a s.clearOutputs).1 = r := by simpa using hr
  have hsame := accessSteps_setQueue hh q'
  refine ⟨_, execIsChannelIO_eq a (s.setQueue q'), ?_⟩
  rw [show (s.setQueue q').clearOutputs = s.clearOutputs.setQueue q' from rfl, hsame]
  exact ⟨rfl, rfl, ⟨rfl, rfl, rfl⟩, rfl, rfl⟩

end Sys2Proof.Machine
end

section
/-! The proofs of the statements of 20_memory.md: no operation writes the configuration (R77, R265). -/

namespace Sys2Proof.Machine

/-! ### What the effects of the handshake leave of the setting -/

theorem sentinelAccess_setting (a : Access) (s : State) : SameSetting s (sentinelAccess a s).2 := by
  have hf := (channelHandle_frame a.dir a.tag a.blk s).sameSetting
  rw [sentinelAccess_snd]
  split <;> exact hf

theorem checkMagic_setting (blk : Block) (s : State) : SameSetting s (checkMagic blk s) :=
  ⟨checkMagic_cfg blk s, checkMagic_pending blk s⟩

/-! ### From the effect of an operation to its outcome -/

theorem sameSetting_of_next {s t u : State} (he : (.next u : Host.Outcome State Fault Refusal) = .next t)
    (hu : SameSetting s u) : SameSetting s t := by
  cases he
  exact hu

/-- A row with a condition either has its effect or answers no next state. -/
theorem sameSetting_of_guarded_next {c : Prop} [Decidable c] {s t u : State} {r : Refusal}
    (he : (if c then .next u else .refused r : Host.Outcome State Fault Refusal) = .next t)
    (hu : SameSetting s u) : SameSetting s t := by
  split at he
  · exact sameSetting_of_next he hu
  · contradiction

/-! ### The statement -/

/-- Settles O55, row by row: what the Channel Handler, the transport and the queue write is within `TransportFrame`, the steps of the
handshake write the session, and the codec and the layouts write outputs only. -/
theorem noOperationWritesTheConfiguration : Obligations.NoOperationWritesTheConfiguration := by
  intro i s t he
  cases i with
  | sentRd a | sentWr a => exact sameSetting_of_guarded_next he (sentinelAccess_setting a s.clearOutputs)
  | knHit | knDone | knMiss => exact sameSetting_of_guarded_next he ⟨rfl, rfl⟩
  | phIdle | phClaimPass | phPendMiss | phActConflict | phActPass => exact sameSetting_of_guarded_next he ⟨rfl, rfl⟩
  | phClaimAccept a => exact sameSetting_of_guarded_next he (checkMagic_setting a.blk s.clearOutputs)
  | phPendConfirm => exact sameSetting_of_guarded_next he ⟨rfl, rfl⟩
  | phActRd => exact sameSetting_of_guarded_next he (transportRead_frame readMax s.clearOutputs).sameSetting
  | phActWr a => exact sameSetting_of_guarded_next he (channelWrite_frame a.tag a.blk s.clearOutputs).sameSetting
  | isChannelIO a => exact sameSetting_of_next he (accessSteps_setting a s.clearOutputs)
  | chRd tag blk => exact sameSetting_of_next he (transportRead_frame readMax s.clearOutputs).sameSetting
  | chWrTag tag blk | chWrBlk tag blk =>
    exact sameSetting_of_guarded_next he (forwardFrame_frame _ _ tag blk s.clearOutputs).sameSetting
  | chWrReject tag blk => exact sameSetting_of_guarded_next he ⟨rfl, rfl⟩
  | chClamp length p => exact sameSetting_of_next he (noteClamp_frame p length s.clearOutputs).sameSetting
  | chFwd p len tag blk => exact sameSetting_of_guarded_next he (transportWrite_frame _ s.clearOutputs).sameSetting
  | hdrEnc | hdrDec | blkConfirm | tagAnnounce | frameWrTag | frameWrBlk => exact sameSetting_of_next he ⟨rfl, rfl⟩
  | blkMagic blk => exact sameSetting_of_next he (checkMagic_setting blk s.clearOutputs)
  | frameRd => exact sameSetting_of_guarded_next he ⟨rfl, rfl⟩
  | qPush batch => exact sameSetting_of_next he (push_frame batch s.clearOutputs).sameSetting
  | qPop | qAvail | reset => exact sameSetting_of_next he ⟨rfl, rfl⟩
  | xpRd maxLen => exact sameSetting_of_next he (transportRead_frame maxLen s.clearOutputs).sameSetting
  | xpWr bytes => exact sameSetting_of_next he (transportWrite_frame bytes s.clearOutputs).sameSetting

end Sys2Proof.Machine
end

section
/-! The proofs of the statements of 30_encoding.md: the key and the round trip of the decoder, the layouts, the classification of an
access, and the entry point as the rows of its classes. -/

namespace Sys2Proof

/-! ### The requests of the operations -/

/-- An access that fits its port comes back from its request (R90, R91). -/
theorem decode_accessRequest {c : Config} {a : Access} (h : a.fits c = true) :
    decode c (accessRequest a) = .ok (.isChannelIO a) := by
  obtain ⟨hdrive, htag⟩ := (Access.fits_iff c a).1 h
  rw [accessRequest, decode_access_of_shape (accessKey_lt a.dir a.addr) (decide_eq_true hdrive) a.tag.size htag a.blk.size,
    keyAddr_accessKey, keyDir_accessKey]

theorem decode_push_batch (c : Config) (batch : ByteSeq) : decode c (.push batch.bytes) = .ok (.qPush batch) := by
  rw [decode_push, dif_pos batch.size]

theorem decode_pop_count (c : Config) (n : Count) : decode c (.pop n.toNat) = .ok (.qPop n) := by
  rw [decode_pop, if_pos n.isLt, BitVec.ofNat_toNat, BitVec.setWidth_eq]

/-- A word of a key's 33 bits, in a row of the table of at most 40, is an access with that key (R91). -/
theorem decodeTableWord_of_key {nbits w : Nat} (hn : nbits ≤ 40) (hw : w < 2 ^ 33) :
    ∃ a, decodeTableWord nbits w = some (.isChannelIO a) ∧ a.addr = keyAddr w ∧ a.dir = keyDir w := by
  obtain ⟨i, hd⟩ := (decode_access_isOk_iff Config.reference 0 w (List.replicate Config.reference.tagLen 0)
    (List.replicate blockLen 0)).2 ⟨hw, by decide, List.length_replicate, List.length_replicate⟩
  obtain ⟨a, rfl, -, -, haddr, hdir, -, -⟩ := decode_access_ok hd
  refine ⟨a, ?_, haddr, hdir⟩
  rw [decodeTableWord, keyRequest, if_pos hn, hd]

/-! ### The bytes of the layouts -/

/-- A header written into the tag reaches its first 12 bytes (R97, R98). -/
theorem Tag.putHeader_getElem?_header (c : Config) (t : Tag) (length : Count) {i : Nat} (hi : i < 12) :
    (t.putHeader c length).bytes[i]? = (hdrEncode c length).bytes[i]? := by
  rw [Tag.putHeader_bytes, List.getElem?_append_left (by rwa [header_length])]

theorem Tag.putHeader_getElem?_rest (c : Config) (t : Tag) (length : Count) {i : Nat} (hi : 12 ≤ i) :
    (t.putHeader c length).bytes[i]? = t.bytes[i]? := by
  rw [Tag.putHeader_bytes, List.getElem?_append_right (by rwa [header_length]), header_length, List.getElem?_drop,
    Nat.add_sub_cancel' hi]

theorem confirmBlock_getElem?_marker (c : Config) (b : Block) (m : Addr) {i : Nat} (hi : i < 4) :
    (confirmBlock c b m).bytes[i]? = c.replyMarker.bytes[i]? := by
  rw [confirmBlock_bytes, List.append_assoc, List.getElem?_append_left (by rwa [marker_length])]

theorem confirmBlock_getElem?_magic (c : Config) (b : Block) (m : Addr) (i : Nat) (hi : i < 4) :
    (confirmBlock c b m).bytes[4 + i]? = (be32 m)[i]? := by
  rw [confirmBlock_eq, Buf.write_bytes, splice_inside _ _ _ _ (by rwa [be32_length]) (by simp [splice_length])]

theorem confirmBlock_getElem?_rest (c : Config) (b : Block) (m : Addr) {i : Nat} (hi : 8 ≤ i) :
    (confirmBlock c b m).bytes[i]? = b.bytes[i]? := by
  rw [confirmBlock_bytes, List.getElem?_append_right (by simpa using hi), List.getElem?_drop]
  simp [Nat.add_sub_cancel' hi]

section
variable (c : Config) (b : Block) (avail : Count) {bs : List Byte} {i : Nat}

theorem readFrame_getElem?_header (hi : i < 12) : (readFrame c b avail bs).bytes[i]? = (hdrEncode c avail).bytes[i]? := by
  have h := splice_inside (b.write 12 bs).bytes 0 (hdrEncode c avail).bytes i (by rwa [header_length])
    (by simp [splice_length])
  rwa [Nat.zero_add] at h

theorem readFrame_getElem?_payload (hbs : bs.length ≤ 500) (hi : i < bs.length) :
    (readFrame c b avail bs).bytes[12 + i]? = bs[i]? := by
  rw [readFrame_eq, Buf.write_bytes, splice_outside _ _ _ _ (.inr (by simp)), Buf.write_bytes,
    splice_inside _ _ _ _ hi (by rw [block_length]; omega)]

theorem readFrame_getElem?_rest (hi : 12 + bs.length ≤ i) : (readFrame c b avail bs).bytes[i]? = b.bytes[i]? := by
  rw [readFrame_eq, Buf.write_bytes, splice_outside _ _ _ _ (.inr (by rw [header_length]; omega)), Buf.write_bytes,
    splice_outside _ _ _ _ (.inr hi)]

end

end Sys2Proof

namespace Sys2Proof.Machine

theorem payload_clamped_inTag (length : Count) (b : Block) :
    (payload .inTag (clampLength .inTag length) b).bytes = b.bytes.take (min length.toNat 512) := by
  simp [payload, Buf.slice, clampLength_toNat]

theorem payload_clamped_inBlk (length : Count) (b : Block) :
    (payload .inBlk (clampLength .inBlk length) b).bytes = (b.bytes.drop 12).take (min length.toNat 500) := by
  simp [payload, Buf.slice, clampLength_toNat]

/-! ### Operations that write outputs only -/

theorem onlyOutputs_clearOutputs (s : State) : OnlyOutputs s s.clearOutputs :=
  ⟨⟨⟨rfl, rfl, rfl⟩, rfl, rfl⟩, ⟨rfl, rfl⟩, rfl⟩

theorem OnlyOutputs.setResult {s t : State} (h : OnlyOutputs s t) (r : Result) : OnlyOutputs s (t.setResult r) := h

theorem OnlyOutputs.raise {s t : State} (h : OnlyOutputs s t) (d : Diag) : OnlyOutputs s (t.raise d) := h

theorem OnlyOutputs.checkMagic {s t : State} (h : OnlyOutputs s t) (b : Block) : OnlyOutputs s (checkMagic b t) := by
  unfold Machine.checkMagic
  split
  · exact h
  · exact h.raise _

theorem patternMismatch_mask : Diag.patternMismatch.mask = 4#6 := rfl

theorem checkMagic_diag (b : Block) (s : State) :
    (checkMagic b s).diag = if isMagicBlock s.cfg b then s.diag else s.diag ||| Diag.patternMismatch.mask := by
  unfold checkMagic
  split <;> rfl

/-! ### The class of an access in each stage -/

/-- The class an access falls in at a stage, by the rules' own case distinctions (R111 to R116). -/
def stageClass (s : State) (a : Access) : Stage → AccessClass
  | .sentinel => match a.dir with
    | .read => .sentRd
    | .write => .sentWr
  | .knock => if a.addr = s.expected then if s.knockIdx = 4 then .knDone else .knHit else .knMiss
  | .dispatch => match s.phase with
    | .idle => .phIdle
    | .claimedDrive => if a.dir = .write ∧ a.drive = s.claimedDrive then .phClaimAccept else .phClaimPass
    | .sectorPending =>
      if a.dir = .read ∧ a.drive = s.claimedDrive ∧ a.addr = s.magicSector then .phPendConfirm else .phPendMiss
    | .active =>
      if a.addr = s.magicSector then
        if a.drive = s.claimedDrive then match a.dir with
          | .read => .phActRd
          | .write => .phActWr
        else .phActConflict
      else .phActPass

theorem knockIdx_ne_four_iff (i : Fin knockLen) : i ≠ 4 ↔ i.val ≤ 3 := by revert i; decide

theorem stageClass_stage (s : State) (a : Access) (st : Stage) : (stageClass s a st).stage = st := by
  cases st <;> simp only [stageClass] <;> (repeat' split) <;> rfl

theorem phClaimPass_holds_iff (a : Access) (s : State) :
    AccessClass.phClaimPass.holds s a = true ↔
      a.addr ≠ s.cfg.sentinel ∧ s.phase = .claimedDrive ∧ ¬(a.dir = .write ∧ a.drive = s.claimedDrive) := by
  simp [AccessClass.holds, State.ordinary, and_assoc, Decidable.imp_iff_not_or]

theorem phPendConfirm_holds_iff (a : Access) (s : State) :
    AccessClass.phPendConfirm.holds s a = true ↔ a.addr ≠ s.cfg.sentinel ∧ s.phase = .sectorPending ∧
      (a.dir = .read ∧ a.drive = s.claimedDrive ∧ a.addr = s.magicSector) := by
  simp [AccessClass.holds, State.ordinary, and_assoc]

theorem phPendMiss_holds_iff (a : Access) (s : State) :
    AccessClass.phPendMiss.holds s a = true ↔ a.addr ≠ s.cfg.sentinel ∧ s.phase = .sectorPending ∧
      ¬(a.dir = .read ∧ a.drive = s.claimedDrive ∧ a.addr = s.magicSector) := by
  simp [AccessClass.holds, State.ordinary, and_assoc, or_assoc, Decidable.imp_iff_not_or]

/-- An access is in the class its stage gives it: stage A at the sentinel, stages B and C elsewhere (R110). -/
theorem stageClass_holds {s : State} {a : Access} {st : Stage} (h : st = .sentinel ↔ a.addr = s.cfg.sentinel) :
    (stageClass s a st).holds s a = true := by
  cases st with
  | sentinel =>
    have hs : a.addr = s.cfg.sentinel := h.1 rfl
    cases hd : a.dir <;> simp [stageClass, AccessClass.holds, hs, hd]
  | knock =>
    have ho : a.addr ≠ s.cfg.sentinel := fun hs => by simpa using h.2 hs
    simp only [stageClass]
    split
    next he =>
      split
      next h4 => exact (knDone_holds_iff a s).2 ⟨ho, he.trans (expected_last h4), h4⟩
      next h4 => exact (knHit_holds_iff a s).2 ⟨ho, he, (knockIdx_ne_four_iff _).1 h4⟩
    next he => exact (knMiss_holds_iff a s).2 ⟨ho, he⟩
  | dispatch =>
    have ho : a.addr ≠ s.cfg.sentinel := fun hs => by simpa using h.2 hs
    cases hp : s.phase with
    | idle => simp [stageClass, AccessClass.holds, State.ordinary, ho, hp]
    | claimedDrive =>
      simp only [stageClass, hp]
      split
      next hd => exact (phClaimAccept_holds_iff a s).2 ⟨ho, hp, hd⟩
      next hd => exact (phClaimPass_holds_iff a s).2 ⟨ho, hp, hd⟩
    | sectorPending =>
      simp only [stageClass, hp]
      split
      next hd => exact (phPendConfirm_holds_iff a s).2 ⟨ho, hp, hd⟩
      next hd => exact (phPendMiss_holds_iff a s).2 ⟨ho, hp, hd⟩
    | active =>
      by_cases hm : a.addr = s.magicSector
      · by_cases hc : a.drive = s.claimedDrive
        · cases hd : a.dir <;> simp_all [stageClass, AccessClass.holds, State.ordinary]
        · simp_all [stageClass, AccessClass.holds, State.ordinary]
      · simp [stageClass, AccessClass.holds, State.ordinary, ho, hp, hm]

/-- A class whose condition holds is the one its stage gives (R110). -/
theorem eq_stageClass_of_holds {k : AccessClass} {s : State} {a : Access} (h : k.holds s a = true) :
    k = stageClass s a k.stage := by
  cases k with
  | knHit =>
    obtain ⟨-, he, hi⟩ := (knHit_holds_iff a s).1 h
    have h4 : s.knockIdx ≠ 4 := (knockIdx_ne_four_iff _).2 hi
    simp [AccessClass.stage, stageClass, he, h4]
  | knDone =>
    obtain ⟨-, he, h4⟩ := (knDone_holds_iff a s).1 h
    have he' : a.addr = s.expected := he.trans (expected_last h4).symm
    simp [AccessClass.stage, stageClass, he', h4]
  | knMiss => simp [AccessClass.stage, stageClass, ((knMiss_holds_iff a s).1 h).2]
  | phClaimPass =>
    obtain ⟨-, hp, hd⟩ := (phClaimPass_holds_iff a s).1 h
    simp only [AccessClass.stage, stageClass, hp, if_neg hd]
  | phPendMiss =>
    obtain ⟨-, hp, hd⟩ := (phPendMiss_holds_iff a s).1 h
    simp only [AccessClass.stage, stageClass, hp, if_neg hd]
  | sentRd | sentWr | phIdle | phClaimAccept | phPendConfirm | phActRd | phActWr | phActConflict | phActPass =>
    simp_all [AccessClass.holds, AccessClass.stage, stageClass]

/-- Stage A holds at the sentinel alone, stages B and C elsewhere alone (R110, R112). -/
theorem stage_eq_sentinel_iff_of_holds {k : AccessClass} {s : State} {a : Access} (h : k.holds s a = true) :
    k.stage = .sentinel ↔ a.addr = s.cfg.sentinel := by
  cases k <;> simp only [AccessClass.holds, State.ordinary, Bool.and_eq_true, bne_iff_ne, beq_iff_eq, and_assoc] at h <;>
    simp [AccessClass.stage, h.1]

theorem existsUnique_class {s : State} {a : Access} {st : Stage} (h : st = .sentinel ↔ a.addr = s.cfg.sentinel) :
    ∃! k : AccessClass, k.stage = st ∧ k.holds s a = true := by
  refine ⟨stageClass s a st, ⟨stageClass_stage s a st, stageClass_holds h⟩, ?_⟩
  rintro k ⟨rfl, hk⟩
  exact eq_stageClass_of_holds hk

/-! ### The rows of the classes -/

/-- A row of the access classes answers a next state where its condition holds, and refuses elsewhere (log entry 7). -/
theorem exec_class_row (k : AccessClass) (a : Access) (s : State) :
    ∃ t, exec (k.instr a) s = if k.holds s a then .next t else .refused .whenFalse := by
  cases k <;> exact ⟨_, rfl⟩

/-- A row of stage A does what step 1 does with an access of its class (R111, R131). -/
theorem exec_sentinel_row {k : AccessClass} {a : Access} {s : State} (hk : k.stage = .sentinel) (h : k.holds s a = true) :
    exec (k.instr a) s = replyWith (sentinelAccess a s.clearOutputs) := by
  cases k with
  | sentRd | sentWr => exact if_pos h
  | _ => contradiction

@[simp] theorem knockStep_diag (a : Access) (s : State) : (knockStep a s).2.diag = s.diag := by
  obtain ⟨-, -, e⟩ | ⟨-, -, e⟩ | ⟨-, e⟩ := knockStep_cases a s <;> rw [e] <;> rfl

@[simp] theorem knockStep_cfg (a : Access) (s : State) : (knockStep a s).2.cfg = s.cfg := by
  obtain ⟨-, -, e⟩ | ⟨-, -, e⟩ | ⟨-, e⟩ := knockStep_cases a s <;> rw [e] <;> rfl

/-- A row of stage B leaves the state that knock detection leaves, with the buffers for stage C in its result (R112, R142). -/
theorem exec_knock_row_leaves {k : AccessClass} {a : Access} {s : State} (hk : k.stage = .knock) (h : k.holds s a = true) :
    ∃ u, exec (k.instr a) s = .next u ∧ u.cfg = s.cfg ∧
      knockStep a s.clearOutputs = ((seenAfter a u).tag, u.clearOutputs) ∧
      seenAfter a u = { a with tag := (seenAfter a u).tag } := by
  obtain ⟨u, he, hstep, hseen⟩ := exec_knock_row k a s hk h
  have hcfg : u.cfg = s.cfg := by simpa [hstep] using knockStep_cfg a s.clearOutputs
  have hdiag : u.diag = 0 := by simpa [hstep] using knockStep_diag a s.clearOutputs
  have hclear : u.setResult .none = u.clearOutputs := by simp [State.setResult, State.clearOutputs, ← hdiag]
  exact ⟨u, he, hcfg, hclear ▸ hstep, hseen⟩

/-! ### The write paths -/

theorem channelRow_write_eq_chWrTag {c : Config} {tag : Tag} {blk : Block} (h : (hdrDecode c tag.header).1 = true) :
    channelRow c .write tag blk = .chWrTag tag blk := by
  simp [channelRow, h]

theorem channelRow_write_eq_chWrBlk {c : Config} {tag : Tag} {blk : Block}
    (h : (!(hdrDecode c tag.header).1 && (hdrDecode c blk.header).1) = true) :
    channelRow c .write tag blk = .chWrBlk tag blk := by
  simp_all [channelRow]

theorem channelRow_write_eq_chWrReject {c : Config} {tag : Tag} {blk : Block}
    (h : (!(hdrDecode c tag.header).1 && !(hdrDecode c blk.header).1) = true) :
    channelRow c .write tag blk = .chWrReject tag blk := by
  simp_all [channelRow]

/-! ### The statements -/

/-- Settles O59: an access, classified or not, comes back by its key, and the queue port by the bounds of its operands' types. -/
theorem decodeInvertsEncode : Obligations.DecodeInvertsEncode := by
  intro c i r hw he
  cases i with
  | sentRd a | sentWr a | knHit a | knDone a | knMiss a | phIdle a | phClaimAccept a | phClaimPass a | phPendConfirm a
  | phPendMiss a | phActRd a | phActWr a | phActConflict a | phActPass a | isChannelIO a =>
    cases he
    exact decode_accessRequest hw
  | qPush batch =>
    cases he
    exact decode_push_batch c batch
  | qPop n =>
    cases he
    exact decode_pop_count c n
  | qAvail | reset =>
    cases he
    rfl
  | _ => contradiction

/-- Settles O6: the check is `isMagicBlock`, and a mismatch raises its diagnostic on outputs just cleared. -/
theorem magicBlockMatch : Obligations.MagicBlockMatch := by
  intro blk s
  refine ⟨_, _, rfl, rfl, isMagicBlock_iff s.cfg blk, ?_, ((onlyOutputs_clearOutputs s).checkMagic blk).setResult _⟩
  simp [checkMagic_diag, patternMismatch_mask]

/-- Settles O9: the header is written last, and ends where the payload begins. -/
theorem readFrameLayout : Obligations.ReadFrameLayout := by
  intro avail bytes tag blk s hlen
  refine ⟨_, _, if_pos hlen, rfl, ?_, ?_, ?_, rfl, (onlyOutputs_clearOutputs s).setResult _⟩
  · exact fun i hi => readFrame_getElem?_header s.cfg blk avail hi
  · exact fun i hi => readFrame_getElem?_payload s.cfg blk avail hlen hi
  · exact fun i hi => readFrame_getElem?_rest s.cfg blk avail hi

/-- Settles O41: the class of a stage is `stageClass`, and no class holds at another stage's addresses. -/
theorem classesPartitionAccesses : Obligations.ClassesPartitionAccesses := by
  intro a s
  refine ⟨fun hs => ⟨existsUnique_class (by simp [hs]), fun k hk => ?_⟩,
    fun hs => ⟨fun k hk => ?_, existsUnique_class (by simp [hs]), existsUnique_class (by simp [hs])⟩⟩
  · exact Bool.eq_false_iff.2 fun h => hk ((stage_eq_sentinel_iff_of_holds h).2 hs)
  · exact Bool.eq_false_iff.2 fun h => hs ((stage_eq_sentinel_iff_of_holds h).1 hk)

/-- Settles O42: at the sentinel by step 1 alone; elsewhere the row of stage B leaves what knock detection leaves, and the row of
stage C dispatches from there. -/
theorem accessRunsItsClasses : Obligations.AccessRunsItsClasses := by
  intro a s
  by_cases hs : a.addr = s.cfg.sentinel
  · have hk := stageClass_stage s a .sentinel
    have hh : (stageClass s a .sentinel).holds s a = true := stageClass_holds (by simp [hs])
    refine .inl ⟨_, hk, hh, ?_⟩
    rw [exec_sentinel_row hk hh]
    exact congrArg replyWith (accessSteps_sentinel (s := s.clearOutputs) hs)
  · have hk := stageClass_stage s a .knock
    have hh : (stageClass s a .knock).holds s a = true := stageClass_holds (by simp [hs])
    obtain ⟨u, he, hcfg, hstep, hseen⟩ := exec_knock_row_leaves hk hh
    have hsu : (seenAfter a u).addr ≠ u.cfg.sentinel := by rwa [hseen, hcfg]
    have hkc := stageClass_stage u (seenAfter a u) .dispatch
    have hhc : (stageClass u (seenAfter a u) .dispatch).holds u (seenAfter a u) = true := stageClass_holds (by simp [hsu])
    refine .inr ⟨_, _, u, hk, hh, he, hkc, hhc, ?_⟩
    calc exec (.isChannelIO a) s
        = replyWith (accessSteps a s.clearOutputs) := rfl
      _ = replyWith (phaseDispatch (seenAfter a u) u.clearOutputs) := by
        rw [accessSteps_ordinary (s := s.clearOutputs) hs, hstep, ← hseen]
      _ = _ := (exec_dispatch_row _ _ u hkc hhc).symm

/-- Settles O7: the tag and the block byte by byte; the magic sector's four bytes stand behind the marker's four. -/
theorem confirmReplyLayout : Obligations.ConfirmReplyLayout := by
  intro tag blk s
  have hmagic := confirmBlock_getElem?_magic s.cfg blk s.magicSector
  refine ⟨_, _, _, rfl, rfl, Tag.putHeader_bytes s.cfg tag 8, ?_, hmagic 0 (by decide), hmagic 1 (by decide),
    hmagic 2 (by decide), hmagic 3 (by decide), ?_, rfl, (onlyOutputs_clearOutputs s).setResult _⟩
  · exact fun i hi => confirmBlock_getElem?_marker s.cfg blk s.magicSector hi
  · exact fun i hi => confirmBlock_getElem?_rest s.cfg blk s.magicSector hi

/-- Settles O8: the announcement is a header of length 0 put into the tag. -/
theorem announcementLayout : Obligations.AnnouncementLayout := by
  intro tag blk s
  refine ⟨_, _, rfl, rfl, ?_, ?_, rfl, (onlyOutputs_clearOutputs s).setResult _⟩
  · exact fun i hi => Tag.putHeader_getElem?_header s.cfg tag 0 hi
  · exact fun i hi => Tag.putHeader_getElem?_rest s.cfg tag 0 hi

/-- Settles O10: the payload is the slice of the clamped length in tag placement. -/
theorem writeFrameInTagPayload : Obligations.WriteFrameInTagPayload := by
  intro tag blk s
  refine ⟨_, _, rfl, rfl, fun h => ?_, fun h => ?_, rfl, (onlyOutputs_clearOutputs s).setResult _⟩
  · exact ⟨_, if_pos h, payload_clamped_inTag _ blk⟩
  · exact if_neg (Bool.eq_false_iff.1 h)

/-- Settles O11: the payload is the slice of the clamped length in block placement, where the tag does not win. -/
theorem writeFrameInBlockPayload : Obligations.WriteFrameInBlockPayload := by
  intro tag blk s
  refine ⟨_, _, rfl, rfl, fun ht hb => ?_, fun h => ?_, rfl, (onlyOutputs_clearOutputs s).setResult _⟩
  · exact ⟨_, if_pos (by simp [ht, hb]), payload_clamped_inBlk _ blk⟩
  · exact if_neg (by obtain h | h := h <;> simp [h])

/-- Settles O25: each row's condition is the one under which `channelRow` names it. -/
theorem writePathsNeverOverlap : Obligations.WritePathsNeverOverlap := by
  intro tag blk s
  refine ⟨⟨_, exec_channelRow .write tag blk s⟩, ?_⟩
  rintro i (rfl | rfl | rfl) hne
  · exact if_neg fun h => hne (channelRow_write_eq_chWrTag h).symm
  · exact if_neg fun h => hne (channelRow_write_eq_chWrBlk h).symm
  · exact if_neg fun h => hne (channelRow_write_eq_chWrReject h).symm

/-- Settles O40: each row is guarded by its class's condition. -/
theorem rowsRefuseOtherClasses : Obligations.RowsRefuseOtherClasses := by
  intro k a s h
  obtain ⟨t, he⟩ := exec_class_row k a s
  rw [he, if_neg (Bool.eq_false_iff.1 h)]

/-- Settles O60: the three words are keys, and the address and the direction are read off the key. -/
theorem tableKeysDecode : Obligations.TableKeysDecode := by
  refine ⟨?_, ?_, ?_⟩
  · exact decodeTableWord_of_key (w := 0x0FFFFFFFF) (by decide) (by decide)
  · exact decodeTableWord_of_key (w := 0x1FFFFFFFF) (by decide) (by decide)
  · exact decodeTableWord_of_key (w := 0x000000049) (by decide) (by decide)

end Sys2Proof.Machine
end

section
/-! The proofs of the statements of 41_handshake.md: the rows of the access classes one by one, the knock from end to end, and what an
access at the entry point can do to its buffers, the queue and the phase. -/

namespace Sys2Proof.Machine

/-! ### The diagnostics of the two mismatches -/

theorem protoMismatch_mask : Diag.protoMismatch.mask = 1#6 := rfl
theorem driveConflict_mask : Diag.driveConflict.mask = 2#6 := rfl

/-- A diagnostic raised on outputs just cleared stands alone (R236). -/
theorem clearOutputs_raise_diag (s : State) (d : Diag) : (s.clearOutputs.raise d).diag = d.mask := BitVec.zero_or

/-! ### The conditions of the rows -/

theorem sentRd_holds_iff (a : Access) (s : State) :
    AccessClass.sentRd.holds s a = true ↔ a.addr = s.cfg.sentinel ∧ a.dir = .read := by
  simp [AccessClass.holds]

theorem sentWr_holds_iff (a : Access) (s : State) :
    AccessClass.sentWr.holds s a = true ↔ a.addr = s.cfg.sentinel ∧ a.dir = .write := by
  simp [AccessClass.holds]

theorem phIdle_holds_iff (a : Access) (s : State) :
    AccessClass.phIdle.holds s a = true ↔ a.addr ≠ s.cfg.sentinel ∧ s.phase = .idle := by
  simp [AccessClass.holds, State.ordinary]

theorem phActRd_holds_iff (a : Access) (s : State) :
    AccessClass.phActRd.holds s a = true ↔
      a.addr ≠ s.cfg.sentinel ∧ s.phase = .active ∧ a.addr = s.magicSector ∧ a.drive = s.claimedDrive ∧ a.dir = .read := by
  simp [AccessClass.holds, State.ordinary, and_assoc]

theorem phActWr_holds_iff (a : Access) (s : State) :
    AccessClass.phActWr.holds s a = true ↔
      a.addr ≠ s.cfg.sentinel ∧ s.phase = .active ∧ a.addr = s.magicSector ∧ a.drive = s.claimedDrive ∧ a.dir = .write := by
  simp [AccessClass.holds, State.ordinary, and_assoc]

theorem phActConflict_holds_iff (a : Access) (s : State) :
    AccessClass.phActConflict.holds s a = true ↔
      a.addr ≠ s.cfg.sentinel ∧ s.phase = .active ∧ a.addr = s.magicSector ∧ a.drive ≠ s.claimedDrive := by
  simp [AccessClass.holds, State.ordinary, and_assoc]

theorem phActPass_holds_iff (a : Access) (s : State) :
    AccessClass.phActPass.holds s a = true ↔ a.addr ≠ s.cfg.sentinel ∧ s.phase = .active ∧ a.addr ≠ s.magicSector := by
  simp [AccessClass.holds, State.ordinary, and_assoc]

/-! ### The Channel Handler behind an access -/

/-- An access that returns the Channel Handler's buffers and ends with its queue, calls and diagnostics was delegated to it (R131, R154). -/
theorem DelegatedToChannel.of_channelHandle {a : Access} {s t : State} {r : Reply × State}
    (hr : channelHandle a.dir a.tag a.blk s.clearOutputs = r) (hq : t.q = r.2.q) (hxp : t.xp = r.2.xp) (hdiag : t.diag = r.2.diag)
    (handled : Bool) : DelegatedToChannel s t a ⟨handled, r.1.tag, r.1.blk⟩ r.1.handled :=
  ⟨_, (exec_channelRow a.dir a.tag a.blk s).trans (congrArg replyWith hr), rfl, hq, hxp, hdiag⟩

/-- What the Channel Handler does not handle it returns as it came (R187, R190). -/
theorem channelHandle_unhandled {d : Dir} {t : Tag} {b : Block} {s : State} (h : (channelHandle d t b s).1.handled = false) :
    (channelHandle d t b s).1 = ⟨false, t, b⟩ := by
  cases d with
  | read => contradiction
  | write =>
    obtain ⟨p, l, -, e⟩ | ⟨-, e⟩ := channelWrite_cases t b s
    · rw [channelHandle, e] at h
      contradiction
    · rw [channelHandle, e]
      rfl

/-- With an external transport the Channel Handler does not touch the queue (R221). -/
theorem channelHandle_q_of_external {s : State} (h : s.cfg.transport = .external) (d : Dir) (t : Tag) (b : Block) :
    (channelHandle d t b s).2.q = s.q := by
  cases d with
  | read =>
    rw [channelHandle, channelRead_snd, transportRead_external 500 h]
    rfl
  | write =>
    rw [channelHandle]
    obtain ⟨p, l, -, e⟩ | ⟨-, e⟩ := channelWrite_cases t b s <;> rw [e]
    · have hx : (noteClamp p l s).cfg.transport = .external := by rwa [(noteClamp_frame p l s).cfg]
      rw [forwardFrame, transportWrite_external _ hx, State.logXp_q, noteClamp_q]
    · rfl

theorem channelHandle_moves_queue {d : Dir} {t : Tag} {b : Block} {s : State} (h : (channelHandle d t b s).2.q ≠ s.q) :
    s.cfg.transport = .loopback := by
  cases ht : s.cfg.transport with
  | loopback => rfl
  | external => exact absurd (channelHandle_q_of_external ht d t b) h

/-! ### The sentinel access -/

section
variable (a : Access) (s : State)

/-- The sentinel access is the Channel Handler but for `handled`, which it sets, and the phase (R131, R132). -/
theorem sentinelAccess_eq :
    sentinelAccess a s =
      (⟨true, (channelHandle a.dir a.tag a.blk s).1.tag, (channelHandle a.dir a.tag a.blk s).1.blk⟩,
        (channelHandle a.dir a.tag a.blk s).2.setPhase (if s.phase = .active then .active else .idle)) := by
  refine Prod.ext rfl ?_
  rw [sentinelAccess_snd]
  split
  next hp =>
    rw [← hp, ← (channelHandle_frame a.dir a.tag a.blk s).phase]
    rfl
  next => rfl

theorem sentinelAccess_phase : (sentinelAccess a s).2.phase = if s.phase = .active then .active else .idle := by
  rw [sentinelAccess_eq, State.setPhase_phase]

theorem sentinelAccess_q : (sentinelAccess a s).2.q = (channelHandle a.dir a.tag a.blk s).2.q := by
  rw [sentinelAccess_eq, State.setPhase_q]

end

/-! ### Knock detection -/

theorem knockIdx_succ_val {i : Fin knockLen} (h : i ≠ 4) : (i + 1).val = i.val + 1 := by revert i; decide

/-- The knock is complete at the address expected last (R140). -/
theorem knDone_holds_of_expected {a : Access} {s : State} (hs : a.addr ≠ s.cfg.sentinel) (he : a.addr = s.expected)
    (h4 : s.knockIdx = 4) : AccessClass.knDone.holds s a = true :=
  (knDone_holds_iff a s).2 ⟨hs, he.trans (expected_last h4), h4⟩

/-- An ordinary access that completes no knock moves the counter, by one or to 0, and nothing else (R136, R137). -/
theorem accessSteps_of_not_knDone {a : Access} {s : State} (hs : a.addr ≠ s.cfg.sentinel)
    (hk : AccessClass.knDone.holds s a = false) :
    accessSteps a s = phaseDispatch a (s.setKnock (if a.addr = s.expected then s.knockIdx + 1 else 0)) := by
  rw [accessSteps_ordinary hs]
  obtain ⟨he, h4, -⟩ | ⟨he, -, e⟩ | ⟨he, e⟩ := knockStep_cases a s
  · simp [knDone_holds_of_expected hs he h4] at hk
  · rw [e, if_pos he]
    rfl
  · rw [e, if_neg he]
    rfl

/-- A counter below the last index completes no knock (R140). -/
theorem knDone_holds_eq_false {a : Access} {s : State} (h : s.knockIdx ≠ 4) : AccessClass.knDone.holds s a = false :=
  Bool.eq_false_iff.2 fun hk => h ((knDone_holds_iff a s).1 hk).2.2

/-- The completed knock leaves ClaimedDrive, where a read passes through with the announcement in its tag (R140, R142, R148). -/
theorem accessSteps_knDone_read {a : Access} {s : State} (hk : AccessClass.knDone.holds s a = true) (hd : a.dir = .read) :
    accessSteps a s = (⟨false, a.tag.putHeader s.cfg 0, a.blk⟩, knockDone a.drive s) := by
  obtain ⟨ha, e⟩ | ⟨-, -, e⟩ | ⟨-, hk', -⟩ := accessSteps_cases a s
  · exact absurd ha ((knDone_holds_iff a s).1 hk).1
  · rw [e, phaseDispatch_of_claimedDrive rfl, if_neg (by simp [hd])]
    rfl
  · simp [hk] at hk'

/-! ### Phase dispatch -/

/-- The magic sector on the claimed drive in Active goes to the Channel Handler (R154). -/
theorem phaseDispatch_of_channel {a : Access} {s : State} (hp : s.phase = .active) (hm : a.addr = s.magicSector)
    (hd : a.drive = s.claimedDrive) : phaseDispatch a s = channelHandle a.dir a.tag a.blk s := by
  rw [phaseDispatch_of_active hp, if_pos hm, if_pos hd]

/-- Dispatch does not touch the knock counter. -/
theorem phaseDispatch_knockIdx (a : Access) (s : State) : (phaseDispatch a s).2.knockIdx = s.knockIdx := by
  obtain e | ⟨-, -, -, e⟩ | ⟨-, -, -, -, e⟩ | ⟨-, e⟩ | ⟨-, -, -, e⟩ | ⟨-, -, -, e⟩ := phaseDispatch_cases a s <;> rw [e]
  · rfl
  · exact checkMagic_knockIdx a.blk s
  · rfl
  · rfl
  · exact (channelHandle_frame a.dir a.tag a.blk s).knockIdx
  · rfl

/-- What dispatch does not handle it returns as it came (R158). -/
theorem phaseDispatch_unhandled {a : Access} {s : State} (h : (phaseDispatch a s).1.handled = false) :
    (phaseDispatch a s).1 = ⟨false, a.tag, a.blk⟩ := by
  obtain e | ⟨-, -, -, e⟩ | ⟨-, -, -, -, e⟩ | ⟨-, e⟩ | ⟨-, -, -, e⟩ | ⟨-, -, -, e⟩ := phaseDispatch_cases a s <;>
    rw [e] at h ⊢
  · rfl
  · contradiction
  · contradiction
  · rfl
  · exact channelHandle_unhandled h
  · rfl

/-- Of dispatch only the Channel Handler moves the queue (R154). -/
theorem phaseDispatch_moves_queue {a : Access} {s : State} (h : (phaseDispatch a s).2.q ≠ s.q) :
    s.cfg.transport = .loopback ∧ s.phase = .active ∧ a.addr = s.magicSector ∧ a.drive = s.claimedDrive := by
  obtain e | ⟨-, -, -, e⟩ | ⟨-, -, -, -, e⟩ | ⟨-, e⟩ | ⟨hp, hm, hd, e⟩ | ⟨-, -, -, e⟩ := phaseDispatch_cases a s <;>
    rw [e] at h
  · contradiction
  · exact absurd (checkMagic_q a.blk s) h
  · contradiction
  · contradiction
  · exact ⟨channelHandle_moves_queue h, hp, hm, hd⟩
  · contradiction

/-- Dispatch keeps the phase but for the accepted write and the confirming read (R146, R152). -/
theorem phaseDispatch_phase (a : Access) (s : State) :
    (phaseDispatch a s).2.phase = s.phase ∨
    (s.phase = .claimedDrive ∧ a.dir = .write ∧ a.drive = s.claimedDrive ∧ (phaseDispatch a s).2.phase = .sectorPending) ∨
    (s.phase = .sectorPending ∧ (a.dir = .read ∧ a.drive = s.claimedDrive ∧ a.addr = s.magicSector) ∧
      (phaseDispatch a s).2.phase = .active) := by
  obtain e | ⟨hp, hw, hd, e⟩ | ⟨hp, hr, hd, hm, e⟩ | ⟨-, e⟩ | ⟨-, -, -, e⟩ | ⟨-, -, -, e⟩ := phaseDispatch_cases a s <;> rw [e]
  · exact .inl rfl
  · exact .inr (.inl ⟨hp, hw, hd, rfl⟩)
  · exact .inr (.inr ⟨hp, ⟨hr, hd, hm⟩, rfl⟩)
  · exact .inl rfl
  · exact .inl (channelHandle_frame a.dir a.tag a.blk s).phase
  · exact .inl rfl

/-! ### The entry point -/

/-- What an access leaves unhandled comes back as it came, but for the announcement of a completed knock (R163 (c)). -/
theorem accessSteps_unhandled {a : Access} {s : State} (h : (accessSteps a s).1.handled = false) :
    (accessSteps a s).1 = ⟨false, if AccessClass.knDone.holds s a then a.tag.putHeader s.cfg 0 else a.tag, a.blk⟩ := by
  obtain ⟨-, e⟩ | ⟨-, hk, e⟩ | ⟨-, hk, i, e⟩ := accessSteps_cases a s <;> rw [e] at h ⊢
  · contradiction
  · rw [phaseDispatch_unhandled h, if_pos hk]
  · rw [phaseDispatch_unhandled h, if_neg (by simp [hk])]

/-- An access moves the queue through the Channel Handler, which it reaches at the sentinel or in Active (R163 (e)). -/
theorem accessSteps_moves_queue {a : Access} {s : State} (h : (accessSteps a s).2.q ≠ s.q) :
    s.cfg.transport = .loopback ∧
    (a.addr = s.cfg.sentinel ∨
      (s.phase = .active ∧ a.addr = s.magicSector ∧ a.drive = s.claimedDrive ∧ AccessClass.knDone.holds s a = false)) := by
  obtain ⟨ha, e⟩ | ⟨-, -, e⟩ | ⟨-, hk, i, e⟩ := accessSteps_cases a s <;> rw [e] at h
  · rw [sentinelAccess_q] at h
    exact ⟨channelHandle_moves_queue h, .inl ha⟩
  · obtain ⟨-, hp, -, -⟩ := phaseDispatch_moves_queue h
    contradiction
  · obtain ⟨ht, hp, hm, hd⟩ := phaseDispatch_moves_queue h
    exact ⟨ht, .inr ⟨hp, hm, hd, hk⟩⟩

/-- An access that changes the phase completes a knock, or is the accepted write, the confirming read or a sentinel access in the
handshake (R160, R161). -/
theorem accessSteps_phase {a : Access} {s : State} (h : (accessSteps a s).2.phase ≠ s.phase) :
    (AccessClass.knDone.holds s a = true ∧ ((accessSteps a s).2.phase = .claimedDrive ∨
      (a.dir = .write ∧ (accessSteps a s).2.phase = .sectorPending))) ∨
    (AccessClass.phClaimAccept.holds s a = true ∧ (accessSteps a s).2.phase = .sectorPending) ∨
    (AccessClass.phPendConfirm.holds s a = true ∧ (accessSteps a s).2.phase = .active) ∨
    (a.addr = s.cfg.sentinel ∧ (s.phase = .claimedDrive ∨ s.phase = .sectorPending) ∧ (accessSteps a s).2.phase = .idle) := by
  obtain ⟨ha, e⟩ | ⟨-, hk, e⟩ | ⟨ha, -, i, e⟩ := accessSteps_cases a s <;> rw [e] at h ⊢
  · rw [sentinelAccess_phase] at h ⊢
    refine .inr (.inr (.inr ⟨ha, ?_⟩))
    cases hp : s.phase <;> simp [hp] at h ⊢
  · obtain hp | ⟨-, hw, -, hp⟩ | ⟨hp, -⟩ := phaseDispatch_phase { a with tag := a.tag.putHeader s.cfg 0 } (knockDone a.drive s)
    · exact .inl ⟨hk, .inl hp⟩
    · exact .inl ⟨hk, .inr ⟨hw, hp⟩⟩
    · contradiction
  · obtain hp | ⟨hc, hw, hd, hp⟩ | ⟨hc, hr, hp⟩ := phaseDispatch_phase a (s.setKnock i)
    · exact absurd hp h
    · exact .inr (.inl ⟨(phClaimAccept_holds_iff a s).2 ⟨ha, hc, hw, hd⟩, hp⟩)
    · exact .inr (.inr (.inl ⟨(phPendConfirm_holds_iff a s).2 ⟨ha, hc, hr⟩, hp⟩))

/-! ### Runs of accesses -/

theorem runAll_cons {i : Instr} {is : List Instr} {s t : State} (h : exec i s = .next t) : runAll (i :: is) s = runAll is t := by
  simp [runAll, h]

/-- An access at the expected address before the last moves the counter on, whatever the phase makes of it (R136, R141). -/
theorem exec_isChannelIO_knockHit {a : Access} {s : State} {c : Config} {i : Nat} (hc : s.cfg = c) (hi : s.knockIdx.val = i)
    (hlt : i < 4) (ha : a.addr = c.knock[i]) :
    ∃ t, exec (.isChannelIO a) s = .next t ∧ t.cfg = c ∧ t.knockIdx.val = i + 1 ∧ t.pending = s.pending := by
  subst hc hi
  have he : a.addr = s.expected := ha
  have h4 : s.knockIdx ≠ 4 := (knockIdx_ne_four_iff _).2 (Nat.le_of_lt_succ hlt)
  have hs : a.addr ≠ s.cfg.sentinel := by rw [ha]; exact s.cfg.knock_ordinary _ s.knockIdx.isLt
  obtain ⟨hcfg, hpending⟩ := accessSteps_setting a s.clearOutputs
  refine ⟨_, execIsChannelIO_eq a s, hcfg, ?_, hpending⟩
  rw [State.setResult_knockIdx, accessSteps_of_not_knDone (s := s.clearOutputs) hs (knDone_holds_eq_false h4),
    phaseDispatch_knockIdx]
  exact (congrArg Fin.val (if_pos he)).trans (knockIdx_succ_val h4)

/-! ### The statements -/

/-- Settles O29: row and entry point both run step 1, which is the Channel Handler but for `handled` and the phase. -/
theorem sentinelReachesTheChannel : Obligations.SentinelReachesTheChannel := by
  intro a s hs
  have hf := channelHandle_frame a.dir a.tag a.blk s.clearOutputs
  have hstep := congrArg replyWith (sentinelAccess_eq a s.clearOutputs)
  have hentry : exec (.isChannelIO a) s = replyWith (sentinelAccess a s.clearOutputs) :=
    congrArg replyWith (accessSteps_sentinel (s := s.clearOutputs) hs)
  exact ⟨_, _, _, _, fun hr => (if_pos ((sentRd_holds_iff a s).2 ⟨hs, hr⟩)).trans hstep,
    fun hw => (if_pos ((sentWr_holds_iff a s).2 ⟨hs, hw⟩)).trans hstep, hentry.trans hstep, rfl,
    .of_channelHandle rfl rfl rfl rfl true, rfl, hf.claimedDrive, hf.magicSector, hf.knockIdx, hf.sameSetting⟩

/-- Settles O34: the accepted write, the pattern being checked on outputs just cleared. -/
theorem claimAcceptsAnyWrite : Obligations.ClaimAcceptsAnyWrite := by
  intro a s hs hp hw hd
  have hdiag : (checkMagic a.blk s.clearOutputs).diag = if isMagicBlock s.cfg a.blk then 0#6 else 4#6 := by
    simp [checkMagic_diag, patternMismatch_mask]
  refine ⟨_, if_pos ((phClaimAccept_holds_iff a s).2 ⟨hs, hp, hw, hd⟩), rfl, rfl, rfl, checkMagic_claimedDrive a.blk s.clearOutputs,
    checkMagic_knockIdx a.blk s.clearOutputs, fun h => ?_, fun ⟨i, j, hi, hj, hne⟩ => ?_, checkMagic_q a.blk s.clearOutputs,
    checkMagic_setting a.blk s.clearOutputs, checkMagic_xp a.blk s.clearOutputs⟩
  · exact hdiag.trans (if_pos ((isMagicBlock_iff s.cfg a.blk).2 h))
  · exact hdiag.trans (if_neg fun h => hne ((isMagicBlock_iff s.cfg a.blk).1 h i j hi hj))

/-- Settles O38: both rows are the dispatch of the magic sector on the claimed drive, which is the Channel Handler. -/
theorem activeDelegatesToTheChannel : Obligations.ActiveDelegatesToTheChannel := by
  intro a s hs hp hm hd
  have hf := channelHandle_frame a.dir a.tag a.blk s.clearOutputs
  have hrow (k : AccessClass) (hk : k.stage = .dispatch) (hh : k.holds s a = true) :
      exec (k.instr a) s = replyWith (channelHandle a.dir a.tag a.blk s.clearOutputs) :=
    (exec_dispatch_row k a s hk hh).trans (congrArg replyWith (phaseDispatch_of_channel (s := s.clearOutputs) hp hm hd))
  exact ⟨_, _, fun hr => hrow .phActRd rfl ((phActRd_holds_iff a s).2 ⟨hs, hp, hm, hd, hr⟩),
    fun hw => hrow .phActWr rfl ((phActWr_holds_iff a s).2 ⟨hs, hp, hm, hd, hw⟩), rfl, .of_channelHandle rfl rfl rfl rfl _,
    channelHandle_refuses a.dir a.tag a.blk s.clearOutputs, hf.sameSession, hf.knockIdx, hf.sameSetting⟩

/-- Settles O44: the announcement is the only thing written into what goes back unhandled. -/
theorem unhandledAccessKeepsBuffers : Obligations.UnhandledAccessKeepsBuffers := by
  intro a s t r he hr hh
  cases he
  obtain rfl : (accessSteps a s.clearOutputs).1 = r := by simpa using hr
  rw [accessSteps_unhandled hh]
  refine ⟨rfl, fun hk => if_neg (Bool.eq_false_iff.1 hk), fun hk => ?_⟩
  exact (congrArg Tag.bytes (if_pos hk)).trans (Tag.putHeader_bytes s.cfg a.tag 0)

/-- Settles O45. -/
theorem queueMovesOnlyThroughTheChannel : Obligations.QueueMovesOnlyThroughTheChannel := by
  intro a s t he hq
  cases he
  exact accessSteps_moves_queue (s := s.clearOutputs) hq

/-- Settles O48: four accesses count the knock up to its last address, and the fifth, a read, completes it. -/
theorem fiveKnocksClaimTheDrive : Obligations.FiveKnocksClaimTheDrive := by
  intro s a0 a1 a2 a3 a4 hi h0 h1 h2 h3 h4 hd
  obtain ⟨s1, e1, hc1, hi1, hp1⟩ := exec_isChannelIO_knockHit rfl (Fin.val_eq_of_eq hi) (by decide) h0
  obtain ⟨s2, e2, hc2, hi2, hp2⟩ := exec_isChannelIO_knockHit hc1 hi1 (by decide) h1
  obtain ⟨s3, e3, hc3, hi3, hp3⟩ := exec_isChannelIO_knockHit hc2 hi2 (by decide) h2
  obtain ⟨s4, e4, hc4, hi4, hp4⟩ := exec_isChannelIO_knockHit hc3 hi3 (by decide) h3
  have hs : a4.addr ≠ s4.cfg.sentinel := by rw [h4, hc4]; exact s.cfg.knock_ordinary 4 (by decide)
  have hdone : AccessClass.knDone.holds s4 a4 = true := (knDone_holds_iff a4 s4).2 ⟨hs, by rw [h4, hc4], Fin.ext hi4⟩
  have e5 := congrArg replyWith (accessSteps_knDone_read (s := s4.clearOutputs) hdone hd)
  have htag : (a4.tag.putHeader s4.cfg 0).bytes = (hdrEncode s.cfg 0).bytes ++ a4.tag.bytes.drop 12 := by
    rw [Tag.putHeader_bytes, hc4]
  have hpending : s4.pending = s.pending := by rw [hp4, hp3, hp2, hp1]
  rw [runAll_cons e1, runAll_cons e2, runAll_cons e3, runAll_cons e4]
  exact ⟨_, _, runAll_cons e5, rfl, rfl, rfl, rfl, rfl, htag, rfl, hc4, hpending⟩

/-- Settles O53: of the operations a step can run, the queue port keeps the phase, and an access as `accessSteps_phase` says. -/
theorem phaseChangesOnlyByTransitions : Obligations.PhaseChangesOnlyByTransitions := by
  intro s t hstep hchanged
  obtain ⟨-, rfl⟩ | ⟨r, rest, i, hp, hd, he⟩ := step_cases hstep
  · contradiction
  · refine ⟨r, rest, i, hp, hd, ?_⟩
    obtain ⟨a, rfl, -⟩ | hq | rfl := decode_access_queue_or_reset hd
    · cases he
      have hcases := accessSteps_phase (s := (s.setPending rest).clearOutputs) hchanged
      rw [holds_clear, holds_clear, holds_clear] at hcases
      exact .inr ⟨a, rfl, hcases⟩
    · obtain ⟨⟨hphase, -, -⟩, -⟩ := exec_queueOp_frame hq he
      exact absurd hphase hchanged
    · cases he
      exact .inl ⟨rfl, rfl⟩

/-- Settles O30: below the last index the counter's successor does not wrap. -/
theorem knockHitAdvances : Obligations.KnockHitAdvances := by
  intro a s hs ha hi
  exact ⟨_, if_pos ((knHit_holds_iff a s).2 ⟨hs, ha, hi⟩), knockIdx_succ_val ((knockIdx_ne_four_iff _).2 hi), rfl, rfl,
    ⟨rfl, rfl, rfl⟩, rfl, ⟨rfl, rfl⟩, rfl⟩

/-- Settles O31. -/
theorem knockMissResets : Obligations.KnockMissResets := by
  intro a s hs ha
  exact ⟨_, if_pos ((knMiss_holds_iff a s).2 ⟨hs, ha⟩), rfl, rfl, rfl, ⟨rfl, rfl, rfl⟩, rfl, ⟨rfl, rfl⟩, rfl⟩

/-- Settles O32: the announcement is a header of length 0 put into the tag. -/
theorem knockDoneClaimsTheDrive : Obligations.KnockDoneClaimsTheDrive := by
  intro a s hs hi ha
  refine ⟨_, _, if_pos ((knDone_holds_iff a s).2 ⟨hs, ha, hi⟩), rfl, rfl, rfl, rfl, rfl, ?_, ?_, rfl, rfl, ⟨rfl, rfl⟩, rfl⟩
  · exact fun i hi => Tag.putHeader_getElem?_header s.cfg a.tag 0 hi
  · exact fun i hi => Tag.putHeader_getElem?_rest s.cfg a.tag 0 hi

/-- Settles O33: the entry point moves the counter and then passes through. -/
theorem idlePassesThrough : Obligations.IdlePassesThrough := by
  refine ⟨fun a s hs hp => ?_, fun a s hs hp hk => ?_⟩
  · exact ⟨_, if_pos ((phIdle_holds_iff a s).2 ⟨hs, hp⟩), rfl, rfl, (onlyOutputs_clearOutputs s).setResult _⟩
  · have hsteps := (accessSteps_of_not_knDone (s := s.clearOutputs) hs hk).trans (phaseDispatch_of_idle hp)
    refine ⟨_, congrArg replyWith hsteps, rfl, rfl, ⟨rfl, rfl, rfl⟩, rfl, ⟨rfl, rfl⟩, rfl, fun he => ?_, fun he => if_neg he⟩
    have h4 : s.knockIdx ≠ 4 := fun h4 => by simp [knDone_holds_of_expected hs he h4] at hk
    exact (congrArg Fin.val (if_pos he)).trans (knockIdx_succ_val h4)

/-- Settles O35: neither row raises anything before it passes the access through. -/
theorem ineligibleAccessesPassSilently : Obligations.IneligibleAccessesPassSilently := by
  refine ⟨fun a s hs hp hd => ?_, fun a s hs hp hm => ?_⟩
  · have hnot : ¬(a.dir = .write ∧ a.drive = s.claimedDrive) := by
      rintro ⟨hw, hc⟩
      simp [hw, hc] at hd
    exact ⟨_, if_pos ((phClaimPass_holds_iff a s).2 ⟨hs, hp, hnot⟩), rfl, rfl, (onlyOutputs_clearOutputs s).setResult _⟩
  · exact ⟨_, if_pos ((phActPass_holds_iff a s).2 ⟨hs, hp, hm⟩), rfl, rfl, (onlyOutputs_clearOutputs s).setResult _⟩

/-- Settles O36: the reply's bytes are those of `Tag.putHeader` and `confirmBlock`. -/
theorem confirmingReadActivates : Obligations.ConfirmingReadActivates := by
  intro a s hs hp hr hd hm
  exact ⟨_, _, _, if_pos ((phPendConfirm_holds_iff a s).2 ⟨hs, hp, hr, hd, hm⟩), rfl, rfl, Tag.putHeader_bytes s.cfg a.tag 8,
    confirmBlock_bytes s.cfg a.blk s.magicSector, rfl, rfl, rfl, rfl, rfl, ⟨rfl, rfl⟩, rfl⟩

/-- Settles O37: a write, another drive or another address is not the confirming read. -/
theorem pendingMismatchReported : Obligations.PendingMismatchReported := by
  intro a s hs hp hmiss
  have hnot : ¬(a.dir = .read ∧ a.drive = s.claimedDrive ∧ a.addr = s.magicSector) := by
    rintro ⟨hr, hd, hm⟩
    simp [hr, hd, hm] at hmiss
  exact ⟨_, if_pos ((phPendMiss_holds_iff a s).2 ⟨hs, hp, hnot⟩), rfl,
    (clearOutputs_raise_diag s _).trans protoMismatch_mask, ((onlyOutputs_clearOutputs s).raise .protoMismatch).setResult _⟩

/-- Settles O39. -/
theorem activeConflictReported : Obligations.ActiveConflictReported := by
  intro a s hs hp hm hd
  exact ⟨_, if_pos ((phActConflict_holds_iff a s).2 ⟨hs, hp, hm, hd⟩), rfl,
    (clearOutputs_raise_diag s _).trans driveConflict_mask, ((onlyOutputs_clearOutputs s).raise .driveConflict).setResult _⟩

end Sys2Proof.Machine
end

section
/-! The proofs of the statements of 42_header_codec.md: the bytes of an encoded header, what decoding reads of a header, and that a
header the block wrote is no request. -/

namespace Sys2Proof

/-! ### The bytes of an encoded header -/

/-- Behind a header's marker stand its fields, the length at places 2 and 3 of them (R92). -/
theorem header_getElem?_fields {h : Header} {m : Marker} {length : Count} {r4 r5 : Byte} {trailer : List Byte}
    (e : h.bytes = m.bytes ++ [r4, r5] ++ be16 length ++ trailer) (i : Nat) :
    h.bytes[4 + i]? = ([r4, r5] ++ be16 length ++ trailer)[i]? := by
  rw [e, List.append_assoc, List.append_assoc, List.getElem?_append_right (by simp), marker_length,
    Nat.add_sub_cancel_left, List.append_assoc]

theorem hdrEncode_getElem?_trailer (c : Config) (length : Count) {i : Nat} (h8 : 8 ≤ i) (h12 : i < 12) :
    (hdrEncode c length).bytes[i]? = some 0 := by
  obtain ⟨j, rfl⟩ := Nat.exists_eq_add_of_le h8
  have hj : j < 4 := by omega
  rw [show 8 + j = 4 + (j + 4) by omega, header_getElem?_fields (hdrEncode_bytes c length)]
  exact List.getElem?_replicate_of_lt (n := 4) hj

/-- A header put into the tag is the tag's header. -/
@[simp] theorem Tag.header_putHeader (c : Config) (t : Tag) (length : Count) : (t.putHeader c length).header = hdrEncode c length :=
  Buf.ext_bytes (by rw [Tag.header_bytes, Tag.putHeader_bytes, List.take_left' (header_length _)])

/-! ### What decoding reads -/

/-- Two bytes are a 16-bit number without overflow (R18). -/
theorem ube16_toNat (hi lo : Byte) : (ube16 hi lo).toNat = hi.toNat * 256 + lo.toNat := by
  have := hi.isLt
  have := lo.isLt
  rw [ube16, BitVec.toNat_ofNat]
  omega

/-- A header begins with a list of 4 bytes exactly when they agree place by place. -/
theorem Buf.take_four_eq_iff (h : Header) {l : List Byte} (hl : l.length = 4) :
    h.bytes.take 4 = l ↔ ∀ i, i < 4 → h.bytes[i]? = l[i]? := by
  constructor
  · rintro rfl i hi
    exact (List.getElem?_take_of_lt hi).symm
  · intro e
    refine List.ext_getElem? fun i => ?_
    by_cases hi : i < 4
    · rw [List.getElem?_take_of_lt hi, e i hi]
    · rw [List.getElem?_eq_none (by simp; omega), List.getElem?_eq_none (by omega)]

/-- A byte read from a header is the one that stands there. -/
theorem Buf.get_eq_of_getElem? {n : Nat} {b : Buf n} {i : Nat} {x : Byte} (hi : i < n) (h : b.bytes[i]? = some x) :
    b.get i hi = x :=
  Option.some.inj ((b.getElem?_get i hi).symm.trans h)

/-- Decoding reads bytes 0 to 3, 6 and 7 alone (R172, R173). -/
theorem hdrDecode_congr (c : Config) {h h' : Header} (e : ∀ i, i < 4 ∨ i = 6 ∨ i = 7 → h.bytes[i]? = h'.bytes[i]?) :
    hdrDecode c h = hdrDecode c h' := by
  have hmarker : h.bytes.take 4 = h'.bytes.take 4 :=
    (h.take_four_eq_iff (by simp)).2 fun i hi => (e i (.inl hi)).trans (List.getElem?_take_of_lt hi).symm
  have hhigh : h.get 6 (by decide) = h'.get 6 (by decide) :=
    Buf.get_eq_of_getElem? _ ((e 6 (.inr (.inl rfl))).trans (h'.getElem?_get 6 _))
  have hlow : h.get 7 (by decide) = h'.get 7 (by decide) :=
    Buf.get_eq_of_getElem? _ ((e 7 (.inr (.inr rfl))).trans (h'.getElem?_get 7 _))
  rw [hdrDecode_eq, hdrDecode_eq, hmarker, hhigh, hlow]

/-- A header with the request marker and a big-endian length is valid with that length, whatever its reserved bytes (R173). -/
theorem hdrDecode_request (c : Config) {h : Header} {length : Count} {r4 r5 : Byte} {trailer : List Byte}
    (e : h.bytes = c.reqMarker.bytes ++ [r4, r5] ++ be16 length ++ trailer) : hdrDecode c h = (true, length) := by
  have hfields := header_getElem?_fields e
  have hmarker : h.bytes.take 4 = c.reqMarker.bytes := by
    rw [e, List.append_assoc, List.append_assoc, List.take_left' c.reqMarker.size]
  have hhigh : h.get 6 (by decide) = length.extractLsb' 8 8 := Buf.get_eq_of_getElem? _ (hfields 2)
  have hlow : h.get 7 (by decide) = length.extractLsb' 0 8 := Buf.get_eq_of_getElem? _ (hfields 3)
  rw [hdrDecode_eq, hmarker, hhigh, hlow, ube16_split, beq_self_eq_true]

end Sys2Proof

namespace Sys2Proof.Machine

/-- Where the tag's header is invalid, a write frame's header is looked for in the block alone (R186). -/
theorem locateHeader_of_tag_invalid {c : Config} {tag : Tag} (blk : Block) (h : (hdrDecode c tag.header).1 = false) :
    locateHeader c tag blk =
      if (hdrDecode c blk.header).1 then some (.inBlk, (hdrDecode c blk.header).2) else none :=
  if_neg (Bool.eq_false_iff.1 h)

/-- `HDR.DEC` answers with what decoding gives, on outputs just cleared (R172). -/
theorem exec_hdrDec (h : Header) (s : State) :
    exec (.hdrDec h) s = .next (s.clearOutputs.setResult (.decoded (hdrDecode s.cfg h).1 (hdrDecode s.cfg h).2)) := rfl

/-! ### The statements -/

/-- Settles O4: the two markers differ, and a tag the block wrote has the header `hdrEncode` wrote. -/
theorem replyHeaderIsNoRequest : Obligations.ReplyHeaderIsNoRequest := by
  refine ⟨fun h s hm => ?_, fun c tag blk n => locateHeader_of_tag_invalid blk ?_⟩
  · exact ⟨_, (hdrDecode s.cfg h).2, exec_hdrDec h s, by rw [hdrDecode_reply_invalid s.cfg h hm]; rfl⟩
  · rw [Tag.header_putHeader]
    exact hdrDecode_reply_invalid c _ (hdrEncode_marker c n)

/-- Settles O1: the marker, then the fields behind it place by place. -/
theorem hdrEncodeWritesReplyHeader : Obligations.HdrEncodeWritesReplyHeader := by
  intro length s
  have hfields := header_getElem?_fields (hdrEncode_bytes s.cfg length)
  exact ⟨_, _, rfl, rfl, hdrEncode_marker s.cfg length, hfields 0, hfields 1, hfields 2, hfields 3,
    fun _ h8 h12 => hdrEncode_getElem?_trailer s.cfg length h8 h12, rfl, (onlyOutputs_clearOutputs s).setResult _⟩

/-- Settles O2: equality of the markers is equality of their four bytes, and two bytes are a 16-bit length without overflow. -/
theorem hdrDecodeReadsMarkerAndLength : Obligations.HdrDecodeReadsMarkerAndLength := by
  intro h s
  have hvalid := (hdrDecode_fst s.cfg h).trans (h.take_four_eq_iff (marker_length s.cfg.reqMarker))
  exact ⟨_, _, _, exec_hdrDec h s, rfl, hvalid, ube16_toNat _ _, rfl, (onlyOutputs_clearOutputs s).setResult _⟩

/-- Settles O3: the decoder runs under the configuration the encoder ran under. -/
theorem headerLengthRoundTrip : Obligations.HeaderLengthRoundTrip := by
  intro length s
  refine ⟨_, hdrEncode s.cfg length, _, (hdrDecode s.cfg (hdrEncode s.cfg length)).1, rfl, rfl, exec_hdrDec _ _, ?_⟩
  exact congrArg (Result.decoded _) (hdrDecode_hdrEncode_snd s.cfg length)

/-- Settles O5: the outcome is a function of the decoded header, and decoding reads bytes 0 to 3, 6 and 7 alone. -/
theorem reservedHeaderBytesIgnored : Obligations.ReservedHeaderBytesIgnored := by
  refine ⟨fun h h' s e => ?_, fun s h length r4 r5 r8 r9 r10 r11 e => ⟨_, exec_hdrDec h s, ?_⟩⟩
  · rw [exec_hdrDec, exec_hdrDec, hdrDecode_congr s.cfg e]
  · rw [hdrDecode_request s.cfg e]
    rfl

end Sys2Proof.Machine
end

section
/-! The proofs of the statements of 43_channel_handler.md: the frame of a channel read, and what a channel write clamps, forwards and
refuses. -/

namespace Sys2Proof.Machine

/-! ### The diagnostics of the write path -/

theorem malformedFrame_mask : Diag.malformedFrame.mask = 8#6 := rfl
theorem lengthClamped_mask : Diag.lengthClamped.mask = 16#6 := rfl
theorem queueOverflow_mask : Diag.queueOverflow.mask = 32#6 := rfl

/-! ### The clamp -/

theorem OnlyOutputs.noteClamp {s t : State} (h : OnlyOutputs s t) (p : Placement) (l : Count) :
    OnlyOutputs s (noteClamp p l t) := by
  unfold Machine.noteClamp
  split
  · exact h.raise _
  · exact h

/-- The clamp on outputs just cleared raises `LENGTH_CLAMPED` or nothing (R188, R236). -/
theorem noteClamp_clearOutputs_diag (p : Placement) (l : Count) (s : State) :
    (noteClamp p l s.clearOutputs).diag = if (capacity p).toNat < l.toNat then 16#6 else 0#6 := by
  simp [noteClamp_diag, lengthClamped_mask]

/-! ### Forwarding -/

theorem Forwarded.setResult {s t : State} {bs : List Byte} {clamped : Bool} (h : Forwarded s t bs clamped) (r : Result) :
    Forwarded s (t.setResult r) bs clamped := h

/-- A transport write forwards its bytes on behalf of any state that differs in the outputs alone, where nothing but the clamp's
diagnostic is raised (R218, R219, R221). -/
theorem forwarded_transportWrite {s u : State} {clamped : Bool} (hu : OnlyOutputs s u)
    (hdiag : u.diag = if clamped then 16#6 else 0#6) (bytes : ByteSeq) :
    Forwarded s (transportWrite bytes u) bytes.bytes clamped := by
  obtain ⟨⟨⟨hphase, hclaimed, hmagic⟩, hknock, hq⟩, ⟨hcfg, hpending⟩, hxp⟩ := hu
  have hf := transportWrite_frame bytes u
  refine ⟨⟨hf.phase.trans hphase, hf.claimedDrive.trans hclaimed, hf.magicSector.trans hmagic⟩, hf.knockIdx.trans hknock,
    ⟨hf.cfg.trans hcfg, hf.pending.trans hpending⟩, fun hl hfits => ?_, fun hl hover => ?_, fun he => ?_⟩
  · rw [← hcfg] at hl
    rw [← hcfg, ← hq] at hfits
    obtain ⟨q', hq', e⟩ := push_fits hfits
    rw [transportWrite_loopback bytes hl, e]
    exact ⟨hq'.trans (by rw [hq]), hxp, hdiag⟩
  · rw [← hcfg] at hl
    rw [← hcfg, ← hq] at hover
    rw [transportWrite_loopback bytes hl, push_overflows (Nat.not_le.2 hover)]
    refine ⟨hq, hxp, ?_⟩
    rw [State.raise_diag, hdiag, queueOverflow_mask]
    cases clamped <;> rfl
  · rw [← hcfg] at he
    rw [transportWrite_external bytes he]
    exact ⟨hq, ⟨bytes, rfl, by rw [State.logXp_xp, hxp]⟩, hdiag⟩

/-- A write frame forwards the slice of its clamped length (R188, R189). -/
theorem forwarded_forwardFrame (p : Placement) (l : Count) (tag : Tag) (blk : Block) (s : State) :
    Forwarded s (forwardFrame p l tag blk s.clearOutputs).2 (payload p (clampLength p l) blk).bytes
      (decide ((capacity p).toNat < l.toNat)) :=
  forwarded_transportWrite ((onlyOutputs_clearOutputs s).noteClamp p l)
    (by simpa only [decide_eq_true_eq] using noteClamp_clearOutputs_diag p l s) _

/-- `CH.FWD` within the capacity forwards its slice and replies with the buffers as they came (R189, R190). -/
theorem exec_chFwd_forwards {p : Placement} {len : Count} (h : len.toNat ≤ (capacity p).toNat) (tag : Tag) (blk : Block) (s : State) :
    ∃ t, exec (.chFwd p len tag blk) s = .next t ∧ t.result = .reply ⟨true, tag, blk⟩ ∧
      Forwarded s t (payload p len blk).bytes false :=
  ⟨_, if_pos h, rfl, (forwarded_transportWrite (onlyOutputs_clearOutputs s) rfl _).setResult _⟩

/-! ### The read path -/

/-- `CH.RD` frames what the transport answers to a read of 500 bytes (R181). -/
theorem exec_chRd_of_transportRead {s u : State} {avail : Count} {bs : ByteSeq}
    (h : transportRead 500 s.clearOutputs = ((avail, bs), u)) (tag : Tag) (blk : Block) :
    exec (.chRd tag blk) s = .next (u.setResult (.reply ⟨true, tag, readFrame s.cfg blk avail bs.bytes⟩)) := by
  refine (congrArg replyWith (channelRead_eq tag blk s.clearOutputs)).trans ?_
  rw [h]
  rfl

/-- `XP.RD` answers what the transport answers (R215). -/
theorem exec_xpRd_of_transportRead {s u : State} {n avail : Count} {bs : ByteSeq}
    (h : transportRead n s.clearOutputs = ((avail, bs), u)) : exec (.xpRd n) s = .next (u.setResult (.transport avail bs)) := by
  rw [exec, execXpRd, h]

/-! ### The statements -/

/-- Settles O20: the transport answers with the front of the queue. -/
theorem channelReadFramesTheQueue : Obligations.ChannelReadFramesTheQueue := by
  intro tag blk s hl
  have hlen : (frontBytes s.q 500).bytes.length = min s.q.bytes.length 500 := by
    rw [frontBytes_bytes, List.length_take, Nat.min_comm]
    rfl
  have hle : (frontBytes s.q 500).bytes.length ≤ 500 := hlen.le.trans (Nat.min_le_right _ _)
  refine ⟨_, _, _, exec_chRd_of_transportRead (transportRead_loopback (s := s.clearOutputs) 500 hl) tag blk, rfl,
    available_toNat s, fun i hi => ?_, fun i hi => ?_, fun i hi => ?_, rfl, rfl, rfl, ⟨rfl, rfl, rfl⟩, rfl, ⟨rfl, rfl⟩⟩
  · exact readFrame_getElem?_header s.cfg blk _ hi
  · rw [← hlen] at hi
    exact (readFrame_getElem?_payload s.cfg blk _ hle hi).trans (List.getElem?_take_of_lt (hi.trans_le hle))
  · rw [← hlen] at hi
    exact readFrame_getElem?_rest s.cfg blk _ hi

/-- Settles O21: both rows read the transport once, in the same state. -/
theorem channelReadFramesExternalBytes : Obligations.ChannelReadFramesExternalBytes := by
  intro tag blk s he
  have hread := transportRead_external (s := s.clearOutputs) 500 he
  have hlen := externalBytes_length (.read 500 :: s.xp) 500
  refine ⟨_, _, _, _, _, exec_xpRd_of_transportRead hread, rfl, rfl, rfl, exec_chRd_of_transportRead hread tag blk, rfl, hlen,
    fun i hi => ?_, fun i hi => ?_, fun i hi => ?_, rfl, ⟨⟨rfl, rfl, rfl⟩, rfl, rfl⟩, ⟨rfl, rfl⟩, rfl⟩
  · exact readFrame_getElem?_header s.cfg blk _ hi
  · exact readFrame_getElem?_payload s.cfg blk _ hlen hi
  · exact readFrame_getElem?_rest s.cfg blk _ hi

/-- Settles O22: the write path in tag placement, whose clamped payload is the block's first bytes. -/
theorem writeWithTagHeaderForwards : Obligations.WriteWithTagHeaderForwards := by
  intro tag blk s h
  refine ⟨_, if_pos h, rfl, ?_⟩
  rw [← payload_clamped_inTag]
  exact (forwarded_forwardFrame .inTag _ tag blk s).setResult _

/-- Settles O23: the write path in block placement, where the tag does not win. -/
theorem writeWithBlockHeaderForwards : Obligations.WriteWithBlockHeaderForwards := by
  intro tag blk s ht hb
  refine ⟨_, if_pos (by simp [ht, hb]), rfl, ?_⟩
  rw [← payload_clamped_inBlk]
  exact (forwarded_forwardFrame .inBlk _ tag blk s).setResult _

/-- Settles O27: the slice is taken at the offset of its placement. -/
theorem forwardSendsTheSlice : Obligations.ForwardSendsTheSlice := by
  intro len tag blk s
  exact ⟨fun h => exec_chFwd_forwards (p := .inTag) h tag blk s, fun h => exec_chFwd_forwards (p := .inBlk) h tag blk s⟩

/-- Settles O19: a read of the transport writes nothing of the session and raises nothing, in both modes. -/
theorem channelReadAlwaysHandled : Obligations.ChannelReadAlwaysHandled := by
  intro tag blk s
  have hf := transportRead_frame 500 s.clearOutputs
  exact ⟨_, _, exec_chRd_of_transportRead rfl tag blk, rfl, transportRead_diag 500 s.clearOutputs, hf.sameSession, hf.knockIdx,
    hf.sameSetting⟩

/-- Settles O24: the rejection raises its diagnostic on outputs just cleared. -/
theorem writeWithoutHeaderRejected : Obligations.WriteWithoutHeaderRejected := by
  intro tag blk s ht hb
  exact ⟨_, if_pos (by simp [ht, hb]), rfl, (clearOutputs_raise_diag s _).trans malformedFrame_mask,
    ((onlyOutputs_clearOutputs s).raise .malformedFrame).setResult _⟩

/-- Settles O26: the clamped length is the lesser of the length and the capacity, and `LENGTH_CLAMPED` says which. -/
theorem clampCutsToCapacity : Obligations.ClampCutsToCapacity := by
  intro length p s
  refine ⟨_, _, rfl, rfl, ?_, ?_, ((onlyOutputs_clearOutputs s).noteClamp p length).setResult _⟩
  · rintro rfl
    exact ⟨clampLength_toNat .inTag length, noteClamp_clearOutputs_diag .inTag length s⟩
  · rintro rfl
    exact ⟨clampLength_toNat .inBlk length, noteClamp_clearOutputs_diag .inBlk length s⟩

end Sys2Proof.Machine
end

section
/-! The proofs of the statements of 44_byte_queue.md: what a push, a pop and a count do at the queue port, and the order of the bytes over
a run of them. -/

namespace Sys2Proof.Machine

/-! ### A pop cuts the queue in two -/

/-- What a pop returns and what it leaves are the queue it found, in order (R203, R204). -/
theorem frontBytes_append_restBytes (q : ByteSeq) (n : Count) : (frontBytes q n).bytes ++ (restBytes q n).bytes = q.bytes :=
  List.take_append_drop n.toNat q.bytes

theorem frontBytes_length (q : ByteSeq) (n : Count) : (frontBytes q n).bytes.length = min q.bytes.length n.toNat := by
  rw [frontBytes_bytes, List.length_take, Nat.min_comm]

/-! ### The bytes that pass the queue port -/

/-- `Q.PUSH` is a push on outputs just cleared (R222, R236). -/
theorem exec_qPush (batch : ByteSeq) (s : State) : exec (.qPush batch) s = .next (push batch s.clearOutputs) := rfl

/-- `Q.POP` leaves the rest of the queue and returns its front, on outputs just cleared (R203, R222). -/
theorem exec_qPop (n : Count) (s : State) :
    exec (.qPop n) s = .next ((s.clearOutputs.setQueue (restBytes s.q n)).setResult (.popped (frontBytes s.q n))) := rfl

/-- A pop's own bytes are the ones counted as leaving. -/
theorem bytesOut_setResult_popped (s : State) (bs : ByteSeq) : bytesOut (s.setResult (.popped bs)) = bs.bytes := rfl

theorem bytesOut_of_result_none {t : State} (h : t.result = .none) : bytesOut t = [] := by
  simp [bytesOut, h]

/-- A push leaves the queue it found with the bytes that entered behind it (R200, R201). -/
theorem push_q_eq_append_bytesIn (batch : ByteSeq) (s : State) :
    (push batch s).q.bytes = s.q.bytes ++ bytesIn (.qPush batch) s := by
  rw [push_q, bytesIn]
  split
  · rfl
  · rw [List.append_nil]

/-- One operation at the queue port completes and loses or reorders nothing: the queue before it and the bytes that entered are the bytes
that left and the queue after it (R207). -/
theorem exec_queueOp_conserves {i : Instr} (hi : isQueueOp i = true) (s : State) :
    ∃ t, exec i s = .next t ∧ s.q.bytes ++ bytesIn i s = bytesOut t ++ t.q.bytes := by
  obtain ⟨batch, rfl⟩ | ⟨n, rfl⟩ | rfl := isQueueOp_cases hi
  · have hnone : (push batch s.clearOutputs).result = .none := (push_frame batch s.clearOutputs).result
    refine ⟨_, exec_qPush batch s, ?_⟩
    rw [bytesOut_of_result_none hnone, List.nil_append]
    exact (push_q_eq_append_bytesIn batch s.clearOutputs).symm
  · refine ⟨_, exec_qPop n s, ?_⟩
    rw [bytesOut_setResult_popped]
    exact (List.append_nil _).trans (frontBytes_append_restBytes s.q n).symm
  · exact ⟨_, rfl, List.append_nil _⟩

theorem queueTrace_cons {i : Instr} {is : List Instr} {s t u : State} {ins outs : List Byte} (he : exec i s = .next t)
    (ht : queueTrace is t = some (ins, outs, u)) :
    queueTrace (i :: is) s = some (bytesIn i s ++ ins, bytesOut t ++ outs, u) := by
  simp [queueTrace, he, ht]

/-! ### The statements -/

/-- Settles O12: a push on outputs just cleared, in its two cases. -/
theorem pushAppendsOrDropsWhole : Obligations.PushAppendsOrDropsWhole := by
  intro batch s
  have hf := push_frame batch s.clearOutputs
  refine ⟨_, exec_qPush batch s, hf.result, fun hfits => ?_, fun hover => ?_, hf.sameSession, hf.knockIdx, hf.sameSetting,
    push_xp batch s.clearOutputs⟩
  · exact ⟨(push_q batch s.clearOutputs).trans (if_pos hfits), (push_diag batch s.clearOutputs).trans (if_pos hfits)⟩
  · rw [push_overflows (s := s.clearOutputs) (Nat.not_le.2 hover)]
    exact ⟨rfl, (clearOutputs_raise_diag s _).trans queueOverflow_mask⟩

/-- Settles O15, by induction on the operations: each one conserves the bytes, so the run does. -/
theorem queueKeepsFifoOrder : Obligations.QueueKeepsFifoOrder := by
  intro ops
  induction ops with
  | nil => exact fun s _ => ⟨[], [], s, rfl, List.append_nil _⟩
  | cons i is ih =>
    intro s hops
    obtain ⟨hi, his⟩ := List.forall_mem_cons.1 hops
    obtain ⟨t, he, hstep⟩ := exec_queueOp_conserves hi s
    obtain ⟨ins, outs, u, htrace, hrun⟩ := ih t his
    refine ⟨_, _, u, queueTrace_cons he htrace, ?_⟩
    calc s.q.bytes ++ (bytesIn i s ++ ins)
      _ = bytesOut t ++ (t.q.bytes ++ ins) := by rw [← List.append_assoc, hstep, List.append_assoc]
      _ = bytesOut t ++ outs ++ u.q.bytes := by rw [hrun, List.append_assoc]

/-- Settles O13: the bytes returned and the bytes left, one behind the other, are the queue before. -/
theorem popTakesTheOldest : Obligations.PopTakesTheOldest := by
  intro n s
  have hcut := frontBytes_append_restBytes s.q n
  refine ⟨_, _, exec_qPop n s, rfl, frontBytes_length s.q n, fun i hi => ?_, ?_, fun i => ?_, rfl, ⟨rfl, rfl, rfl⟩, rfl,
    ⟨rfl, rfl⟩, rfl⟩
  · exact hcut ▸ (List.getElem?_append_left hi).symm
  · rw [← hcut, List.length_append]
    exact (Nat.add_sub_cancel_left ..).symm
  · rw [← hcut, List.getElem?_append_right (Nat.le_add_right ..)]
    rw [Nat.add_sub_cancel_left]
    rfl

/-- Settles O14: the count is the length, which a queue within its capacity bounds. -/
theorem availableCountsTheQueue : Obligations.AvailableCountsTheQueue := by
  intro s
  have hcount := available_toNat s
  exact ⟨_, _, rfl, rfl, hcount, hcount.le.trans, rfl, (onlyOutputs_clearOutputs s).setResult _⟩

end Sys2Proof.Machine
end

section
/-! The proofs of the statements of 45_transport.md: what the two transport functions do in each mode, and the traffic through the
sentinel of a LOOPBACK build, writes first and reads after them. -/

namespace Sys2Proof.Machine

/-! ### A read frame taken apart -/

/-- The length field of a read frame holds `avail` (R181). -/
theorem readFrame_length_field (c : Config) (b : Block) (avail : Count) (bs : List Byte) :
    ube16 ((readFrame c b avail bs).get 6 (by decide)) ((readFrame c b avail bs).get 7 (by decide)) = avail := by
  have hfields (i : Nat) (hi : i < 8) :
      (readFrame c b avail bs).bytes[4 + i]? = ([0, 0] ++ be16 avail ++ [0, 0, 0, 0])[i]? :=
    (readFrame_getElem?_header c b avail (Nat.add_lt_add_left hi 4)).trans (header_getElem?_fields (hdrEncode_bytes c avail) i)
  have hhigh : (readFrame c b avail bs).get 6 (by decide) = avail.extractLsb' 8 8 :=
    Buf.get_eq_of_getElem? _ (hfields 2 (by decide))
  have hlow : (readFrame c b avail bs).get 7 (by decide) = avail.extractLsb' 0 8 :=
    Buf.get_eq_of_getElem? _ (hfields 3 (by decide))
  rw [hhigh, hlow, ube16_split]

/-- A host takes out of a read frame the payload put into it, which has the length the host computes from the header (R183). -/
theorem receivedPayload_readFrame (c : Config) (b : Block) {avail : Count} {bs : List Byte} (h : bs.length = min avail.toNat 500) :
    receivedPayload (readFrame c b avail bs) = bs := by
  have hle : bs.length ≤ 500 := h.le.trans (Nat.min_le_right _ _)
  rw [receivedPayload_eq, readFrame_length_field, ← h, Buf.slice, readFrame_bytes c b avail bs hle, List.append_assoc,
    List.drop_left' (header_length _), List.take_left]

/-! ### One access at the sentinel of a LOOPBACK build -/

section
variable {a : Access} {s : State}

/-- An access at the sentinel leaves the Channel Handler's queue and returns its block, handled (R131). -/
theorem exec_isChannelIO_sentinel (ha : a.addr = s.cfg.sentinel) :
    ∃ t, exec (.isChannelIO a) s = .next t ∧ t.cfg = s.cfg ∧
      t.q = (channelHandle a.dir a.tag a.blk s.clearOutputs).2.q ∧
      ∃ tag, t.result = .reply ⟨true, tag, (channelHandle a.dir a.tag a.blk s.clearOutputs).1.blk⟩ := by
  have hsteps : accessSteps a s.clearOutputs = sentinelAccess a s.clearOutputs := accessSteps_sentinel ha
  refine ⟨_, execIsChannelIO_eq a s, (accessSteps_setting a s.clearOutputs).1, ?_, (accessSteps a s.clearOutputs).1.tag, ?_⟩
  · rw [State.setResult_q, hsteps, sentinelAccess_q]
  · rw [State.setResult_result, hsteps, sentinelAccess_eq]

/-- The payload of a write frame is what its clamp leaves of its slice (R188, R189). -/
theorem channelWrite_of_writtenPayload {bs : List Byte} (h : writtenPayload s.cfg a = some bs) :
    ∃ p l, channelWrite a.tag a.blk s = forwardFrame p l a.tag a.blk s ∧ (payload p (clampLength p l) a.blk).bytes = bs := by
  obtain ⟨p, l, hloc, e⟩ | ⟨hloc, -⟩ := channelWrite_cases a.tag a.blk s
  · exact ⟨p, l, e, by simpa [writtenPayload, hloc] using h⟩
  · simp [writtenPayload, hloc] at h

/-- A write frame whose payload fits goes to the back of the queue (R189, R218). -/
theorem exec_sentinel_write {bs : List Byte} (hl : s.cfg.transport = .loopback) (ha : a.addr = s.cfg.sentinel)
    (hd : a.dir = .write) (hp : writtenPayload s.cfg a = some bs) (hfits : s.q.bytes.length + bs.length ≤ s.cfg.fifoCap.toNat) :
    ∃ t, exec (.isChannelIO a) s = .next t ∧ t.cfg = s.cfg ∧ t.q.bytes = s.q.bytes ++ bs := by
  obtain ⟨t, he, hcfg, hq, -⟩ := exec_isChannelIO_sentinel ha
  obtain ⟨p, l, hw, rfl⟩ := channelWrite_of_writtenPayload (s := s.clearOutputs) hp
  obtain ⟨-, -, -, hpushed, -⟩ := forwarded_forwardFrame p l a.tag a.blk s
  refine ⟨t, he, hcfg, ?_⟩
  rw [hq, hd, channelHandle, hw]
  exact (hpushed hl hfits).1

/-- A read takes the oldest 500 bytes, or all there are, out of the queue and gives them to the host (R181, R183, R217). -/
theorem exec_sentinel_read (hl : s.cfg.transport = .loopback) (ha : a.addr = s.cfg.sentinel) (hd : a.dir = .read) :
    ∃ t, exec (.isChannelIO a) s = .next t ∧ t.cfg = s.cfg ∧ bytesReceived t = s.q.bytes.take 500 ∧
      t.q.bytes = s.q.bytes.drop 500 := by
  obtain ⟨t, he, hcfg, hq, tag, hr⟩ := exec_isChannelIO_sentinel ha
  have hread := transportRead_loopback (s := s.clearOutputs) 500 hl
  rw [hd, channelHandle, channelRead_blk, hread] at hr
  rw [hd, channelHandle, channelRead_snd, hread] at hq
  refine ⟨t, he, hcfg, ?_, by rw [hq]; rfl⟩
  rw [bytesReceived, hr]
  refine receivedPayload_readFrame _ _ ?_
  rw [frontBytes_length, available_toNat]
  rfl

end

/-! ### Runs of writes and of reads -/

/-- Write frames whose payloads together fit complete, and their payloads stand behind what was queued, in order (R218). -/
theorem runAll_sentinel_writes {c : Config} (hl : c.transport = .loopback) (ws : List Access)
    (hws : ∀ a ∈ ws, a.addr = c.sentinel ∧ a.dir = .write ∧ (writtenPayload c a).isSome = true) (s : State) (hc : s.cfg = c)
    (hfits : s.q.bytes.length + (ws.filterMap (writtenPayload c)).flatten.length ≤ c.fifoCap.toNat) :
    ∃ t, runAll (ws.map .isChannelIO) s = .next t ∧ t.cfg = c ∧
      t.q.bytes = s.q.bytes ++ (ws.filterMap (writtenPayload c)).flatten := by
  induction ws generalizing s with
  | nil => exact ⟨s, rfl, hc, (List.append_nil _).symm⟩
  | cons a ws ih =>
    obtain ⟨⟨ha, hd, hsome⟩, hws⟩ := List.forall_mem_cons.1 hws
    obtain ⟨bs, hp⟩ := Option.isSome_iff_exists.1 hsome
    subst hc
    rw [List.filterMap_cons_some hp, List.flatten_cons] at hfits ⊢
    rw [List.length_append] at hfits
    obtain ⟨t, he, hcfg, hq⟩ := exec_sentinel_write hl ha hd hp (by omega)
    obtain ⟨u, hrun, hcfg', hq'⟩ := ih hws t hcfg (by rw [hq, List.length_append]; omega)
    exact ⟨u, (runAll_cons he).trans hrun, hcfg', by rw [hq', hq, List.append_assoc]⟩

theorem readTrace_cons {a : Access} {as : List Access} {s t u : State} {bs : List Byte} (he : exec (.isChannelIO a) s = .next t)
    (ht : readTrace as t = some (bs, u)) : readTrace (a :: as) s = some (bytesReceived t ++ bs, u) := by
  simp [readTrace, he, ht]

/-- Reads complete and give the host the queue from its front on, 500 bytes a read as far as it reaches (R183, R217). -/
theorem readTrace_sentinel_reads {c : Config} (hl : c.transport = .loopback) (rs : List Access)
    (hrs : ∀ a ∈ rs, a.addr = c.sentinel ∧ a.dir = .read) (s : State) (hc : s.cfg = c) :
    ∃ u, readTrace rs s = some (s.q.bytes.take (500 * rs.length), u) := by
  induction rs generalizing s with
  | nil => exact ⟨s, rfl⟩
  | cons a rs ih =>
    obtain ⟨⟨ha, hd⟩, hrs⟩ := List.forall_mem_cons.1 hrs
    subst hc
    obtain ⟨t, he, hcfg, hreceived, hq⟩ := exec_sentinel_read hl ha hd
    obtain ⟨u, htrace⟩ := ih hrs t hcfg
    refine ⟨u, (readTrace_cons he htrace).trans ?_⟩
    rw [hreceived, hq, ← List.take_add, List.length_cons, Nat.mul_succ, Nat.add_comm]

/-! ### The statements -/

/-- Settles O18: a transport write on outputs just cleared. -/
theorem transportWriteForwards : Obligations.TransportWriteForwards := by
  intro bytes s
  exact ⟨_, rfl, (transportWrite_frame bytes s.clearOutputs).result,
    forwarded_transportWrite (onlyOutputs_clearOutputs s) rfl bytes⟩

/-- Settles O49: the writes leave their payloads in the queue, in order, and the reads give the host the queue from its front on. -/
theorem loopbackReturnsWhatWasWritten : Obligations.LoopbackReturnsWhatWasWritten := by
  intro ws rs s hl hempty hws hrs hfits
  obtain ⟨t, hrun, hcfg, hq⟩ := runAll_sentinel_writes hl ws hws s rfl (by rwa [hempty, List.length_nil, Nat.zero_add])
  obtain ⟨u, htrace⟩ := readTrace_sentinel_reads hl rs hrs t hcfg
  exact ⟨t, _, u, hrun, htrace, by rw [hq, hempty, List.nil_append]⟩

/-- Settles O16: the transport answers with the front of the queue and keeps the rest. -/
theorem loopbackReadDrains : Obligations.LoopbackReadDrains := by
  intro n s hl
  exact ⟨_, _, _, exec_xpRd_of_transportRead (transportRead_loopback (s := s.clearOutputs) n hl), rfl, available_toNat s,
    frontBytes_bytes s.q n, restBytes_bytes s.q n, rfl, ⟨rfl, rfl, rfl⟩, rfl, ⟨rfl, rfl⟩, rfl⟩

/-- Settles O17: the environment answers, and only the call is recorded. -/
theorem externalReadLeavesTheQueue : Obligations.ExternalReadLeavesTheQueue := by
  intro n s he
  exact ⟨_, _, _, exec_xpRd_of_transportRead (transportRead_external (s := s.clearOutputs) n he), rfl,
    externalBytes_length (.read n :: s.xp) n, rfl, ⟨⟨rfl, rfl, rfl⟩, rfl, rfl⟩, ⟨rfl, rfl⟩, rfl⟩

end Sys2Proof.Machine
end

section
/-! The proof of the statement of 60_exceptions.md: an access from another drive than the claimed one, after the knock step. -/

namespace Sys2Proof.Machine

/-- Dispatch passes an access from another drive through, whatever the phase, and may raise a diagnostic (R148, R153, R156, R157). -/
theorem phaseDispatch_otherDrive {a : Access} {s : State} (hd : a.drive ≠ s.claimedDrive) :
    (phaseDispatch a s).1 = ⟨false, a.tag, a.blk⟩ ∧ OnlyOutputs s (phaseDispatch a s).2 := by
  have hs : OnlyOutputs s s := ⟨⟨⟨rfl, rfl, rfl⟩, rfl, rfl⟩, ⟨rfl, rfl⟩, rfl⟩
  obtain e | ⟨-, -, h, -⟩ | ⟨-, -, h, -⟩ | ⟨-, e⟩ | ⟨-, -, h, -⟩ | ⟨-, -, -, e⟩ := phaseDispatch_cases a s
  · rw [e]
    exact ⟨rfl, hs⟩
  · exact absurd h hd
  · exact absurd h hd
  · rw [e]
    exact ⟨rfl, hs.raise .protoMismatch⟩
  · exact absurd h hd
  · rw [e]
    exact ⟨rfl, hs.raise .driveConflict⟩

/-- Settles O46: the knock step moves the counter alone, and dispatch passes the access through. -/
theorem otherDrivesCannotTouchTheChannel : Obligations.OtherDrivesCannotTouchTheChannel := by
  intro a s hs hd hk
  have hsteps := accessSteps_of_not_knDone (s := s.clearOutputs) hs hk
  obtain ⟨hreply, ⟨hsession, -, hq⟩, hsetting, hxp⟩ :=
    phaseDispatch_otherDrive (s := s.clearOutputs.setKnock (if a.addr = s.expected then s.knockIdx + 1 else 0)) hd
  exact ⟨_, congrArg replyWith hsteps, congrArg Result.reply hreply, hsession, hq, hsetting, hxp⟩

end Sys2Proof.Machine
end

section
/-! The proof of the statement of 70_reset_and_hazards.md: what `RESET` answers. -/

namespace Sys2Proof.Machine

/-- `RESET` answers the state right after reset of a block built with the same configuration; only the environment's side,
what is pending and the record of external calls, is carried over (R260, R265, log entry 19). -/
theorem exec_reset (s : State) :
    exec .reset s = .next { State.resetWith s.cfg with pending := s.pending, xp := s.xp } := rfl

/-- Settles O50: the block's fields are those of the state after reset, and the rest is carried over. -/
theorem resetRestoresTheInitialState : Obligations.ResetRestoresTheInitialState := by
  intro s
  exact ⟨_, exec_reset s, State.resetWith_phase s.cfg, State.resetWith_knockIdx s.cfg, State.resetWith_q s.cfg,
    State.resetWith_claimedDrive s.cfg, State.resetWith_magicSector s.cfg, State.resetWith_result s.cfg,
    State.resetWith_diag s.cfg, ⟨rfl, rfl⟩, rfl⟩

end Sys2Proof.Machine
end
